-- ==== Sys2Proof/Word.lean ====
section
/-! DEFINITION. The two word types of the psr600 frame codec: the byte, of which every frame element is one
(00_scope.md R6), and the 32-bit host word (30_encoding.md R67, R69, R70). -/

namespace Sys2Proof

/-- An unsigned 8-bit value (R6). -/
abbrev Byte := BitVec 8

/-- A word of the host channel (R67, R69, R70). -/
abbrev Word := BitVec 32

end Sys2Proof
end

