-- ==== Sys2Proof/Syntax.lean ====
section
/-! DEFINITION. The instructions, one constructor per row of spec/opcode_table.json, and the forms in which the host
gives one to the block (30_encoding.md). -/

namespace Sys2Proof

/-- The rows of the opcode table. -/
inductive Instr
  /-- STATUS_QUERY, command byte 'A' (R77). -/
  | statusQuery
  /-- DISPLAY_QUERY, command byte 'L' (R78). -/
  | displayQuery
  /-- KEY_PRESS, command byte 'K', with its key code (R79). -/
  | keyPress (key : Byte)
  /-- TUNE, command byte 'T' (R80). -/
  | tune
  /-- ENCODE, host op 0 (R107). -/
  | encode (cmd : Byte) (data : List Byte)
  /-- SEND, host op 1 (R108). -/
  | send (cmd : Byte) (data : List Byte)
  /-- EXCHANGE, host op 2 (R109). -/
  | exchange (cmd : Byte) (data : List Byte)
  /-- DECODE, host op 3: the supplied checksum byte and the frame bytes STX through ETX (R110). -/
  | decode (chk : Byte) (frame : List Byte)
  /-- RESERVED_OP: every illegal request, op 4 to 7 or rsvd not zero (R111, R68). -/
  | reservedOp (op : BitVec 3) (rsvd : BitVec 5) (cmd : Byte) (bytes : List Byte)
  /-- TAKE, a host step with no request word (R113). -/
  | take
  /-- RESET, the Reset input. `cut` is no operand of the host's: it is the line-out environment's choice of how many
  bytes of a frame being written reached the line (R143, R144; log 6). -/
  | reset (cut : Nat)
  deriving DecidableEq, Repr

/-- A request as a record (R67). The header's len field is the number of bytes. -/
structure Request where
  op : BitVec 3
  rsvd : BitVec 5
  cmd : Byte
  bytes : List Byte
  deriving DecidableEq, Repr

/-- What stands at the host's side of the block for one instruction, before it is decoded: the four formats of the
opcode table (frame, host_op, host_step, reset_input). -/
inductive HostItem
  /-- One of the command frames of R55, naming its row (log 3). -/
  | frame (bytes : List Byte)
  /-- A request on the host channel: the header word and the bytes after it (R67). -/
  | request (header : Word) (bytes : List Byte)
  /-- The host takes the result (R113); no encoding. -/
  | takeStep
  /-- Reset is asserted (R143); no encoding. -/
  | resetInput (cut : Nat)
  deriving DecidableEq, Repr

/-- Why bytes are no instruction. -/
inductive DecodeError
  /-- The header's len is not the number of bytes that follow, so this is no request (R67; log 8). -/
  | lengthMismatch
  /-- The bytes are none of the four command frames of R56 to R59. -/
  | notACommandFrame
  deriving DecidableEq, Repr

end Sys2Proof
end

