-- ==== Sys2Proof/WellFormed.lean ====
section
/-! DEFINITION. What makes an instruction well-formed: its bytes fit the 16-bit len field (R10, R67), and a RESERVED_OP
is really an illegal request (R68). -/

namespace Sys2Proof

/-- The number of bytes fits `REQ[31:16]` (R10, R67). -/
abbrev bytesFit (bytes : List Byte) : Bool :=
  decide (bytes.length < 65536)

/-- A request is legal exactly when `op <= 3` and `rsvd = 0` (R68). -/
abbrev legalRequest (op : BitVec 3) (rsvd : BitVec 5) : Bool :=
  decide (op.toNat ≤ 3) && decide (rsvd = 0)

def wellFormed : Instr → Bool
  | .statusQuery => true
  | .displayQuery => true
  | .keyPress _ => true
  | .tune => true
  | .encode _ data => bytesFit data
  | .send _ data => bytesFit data
  | .exchange _ data => bytesFit data
  | .decode _ frame => bytesFit frame
  | .reservedOp op rsvd _ bytes => !legalRequest op rsvd && bytesFit bytes
  | .take => true
  | .reset _ => true

end Sys2Proof
end

