-- ==== Sys2Proof/Decode.lean ====
section
/-! DEFINITION. Decoding a host item to an instruction, total and rejecting by name, and encoding an instruction, both
from the encodings of 30_encoding.md. -/

namespace Sys2Proof

/-! ## Constants -/

/-- The start marker (R5). -/
abbrev STX : Byte := 0x02#8

/-- The end marker (R5). -/
abbrev ETX : Byte := 0x03#8

/-- `'A'` (R12, R55). -/
abbrev cmdStatus : Byte := 0x41#8

/-- `'L'` (R12, R55). -/
abbrev cmdDisplay : Byte := 0x4C#8

/-- `'K'` (R12, R55). -/
abbrev cmdKey : Byte := 0x4B#8

/-- `'T'` (R12, R55). -/
abbrev cmdTune : Byte := 0x54#8

/-! ## The request header (R67) -/

/-- `REQ[2:0]`. -/
def headerOp (h : Word) : BitVec 3 := h.extractLsb' 0 3

/-- `REQ[7:3]`. -/
def headerRsvd (h : Word) : BitVec 5 := h.extractLsb' 3 5

/-- `REQ[15:8]`. -/
def headerCmd (h : Word) : Byte := h.extractLsb' 8 8

/-- `REQ[31:16]`. -/
def headerLen (h : Word) : BitVec 16 := h.extractLsb' 16 16

/-- The header word of a request of `len` bytes. -/
def headerWord (op : BitVec 3) (rsvd : BitVec 5) (cmd : Byte) (len : Nat) : Word :=
  BitVec.ofNat 16 len ++ cmd ++ rsvd ++ op

/-! ## From a request record to its instruction, and back -/

/-- The operation a request names (R66): dispatch on op when it is legal, else RESERVED_OP (R106, R111). -/
def Request.toInstr (r : Request) : Instr :=
  if r.rsvd = 0 then
    if r.op = 0 then .encode r.cmd r.bytes
    else if r.op = 1 then .send r.cmd r.bytes
    else if r.op = 2 then .exchange r.cmd r.bytes
    else if r.op = 3 then .decode r.cmd r.bytes
    else .reservedOp r.op r.rsvd r.cmd r.bytes
  else .reservedOp r.op r.rsvd r.cmd r.bytes

/-- The request that an instruction puts on the host channel: for a command row, the operation R55 says it is issued
by. TAKE and RESET are no requests. -/
def requestOf : Instr → Option Request
  | .statusQuery => some { op := 2, rsvd := 0, cmd := cmdStatus, bytes := [] }
  | .displayQuery => some { op := 2, rsvd := 0, cmd := cmdDisplay, bytes := [] }
  | .keyPress key => some { op := 1, rsvd := 0, cmd := cmdKey, bytes := [key] }
  | .tune => some { op := 1, rsvd := 0, cmd := cmdTune, bytes := [0, 0, 0, 0, 0] }
  | .encode cmd data => some { op := 0, rsvd := 0, cmd := cmd, bytes := data }
  | .send cmd data => some { op := 1, rsvd := 0, cmd := cmd, bytes := data }
  | .exchange cmd data => some { op := 2, rsvd := 0, cmd := cmd, bytes := data }
  | .decode chk frame => some { op := 3, rsvd := 0, cmd := chk, bytes := frame }
  | .reservedOp op rsvd cmd bytes => some { op := op, rsvd := rsvd, cmd := cmd, bytes := bytes }
  | .take => none
  | .reset _ => none

/-! ## Decoding -/

/-- The four command frames, bit-exact (R56 to R59). -/
def decodeFrameItem (bytes : List Byte) : Except DecodeError Instr :=
  if bytes = [0x02, 0x41, 0x03, 0x44] then .ok .statusQuery
  else if bytes = [0x02, 0x4C, 0x03, 0x4F] then .ok .displayQuery
  else if bytes = [0x02, 0x54, 0x00, 0x00, 0x00, 0x00, 0x00, 0x03, 0x57] then .ok .tune
  else
    match bytes with
    | [b0, b1, key, b3, chk] =>
      if b0 = 0x02 ∧ b1 = 0x4B ∧ b3 = 0x03 ∧ chk = 0x4E + key then .ok (.keyPress key)
      else .error .notACommandFrame
    | _ => .error .notACommandFrame

/-- A request: header and exactly `REQ[31:16]` bytes (R67). -/
def decodeRequest (header : Word) (bytes : List Byte) : Except DecodeError Instr :=
  if (headerLen header).toNat = bytes.length then
    .ok (Request.toInstr
      { op := headerOp header, rsvd := headerRsvd header, cmd := headerCmd header, bytes := bytes })
  else .error .lengthMismatch

/-- The decoder. -/
def decode : HostItem → Except DecodeError Instr
  | .frame bytes => decodeFrameItem bytes
  | .request header bytes => decodeRequest header bytes
  | .takeStep => .ok .take
  | .resetInput cut => .ok (.reset cut)

/-! ## Encoding -/

/-- A request as it stands on the host channel (R67, R71). -/
def requestItem (op : BitVec 3) (rsvd : BitVec 5) (cmd : Byte) (bytes : List Byte) : HostItem :=
  .request (headerWord op rsvd cmd bytes.length) bytes

/-- The encoder, from the frames of R56 to R59 and the header layout of R66, R67. -/
def encode : Instr → HostItem
  | .statusQuery => .frame [0x02, 0x41, 0x03, 0x44]
  | .displayQuery => .frame [0x02, 0x4C, 0x03, 0x4F]
  | .keyPress key => .frame [0x02, 0x4B, key, 0x03, 0x4E + key]
  | .tune => .frame [0x02, 0x54, 0x00, 0x00, 0x00, 0x00, 0x00, 0x03, 0x57]
  | .encode cmd data => requestItem 0 0 cmd data
  | .send cmd data => requestItem 1 0 cmd data
  | .exchange cmd data => requestItem 2 0 cmd data
  | .decode chk frame => requestItem 3 0 chk frame
  | .reservedOp op rsvd cmd bytes => requestItem op rsvd cmd bytes
  | .take => .takeStep
  | .reset cut => .resetInput cut

/-! ## The opcode table's numbering (log 4) -/

/-- The frame rows of the table: their match and mask apply to the command byte alone, so that byte names the row, and
the frame's data byte is 0. -/
def frameOfTableByte (w : Nat) : Option Instr :=
  if w = 0x41 then some .statusQuery
  else if w = 0x4C then some .displayQuery
  else if w = 0x4B then some (.keyPress 0)
  else if w = 0x54 then some .tune
  else none

/-- The bytes after a header word whose bits count on from bit 32. -/
def operandBytes (w : Nat) : Nat → List Byte
  | 0 => []
  | n + 1 => BitVec.ofNat 8 w :: operandBytes (w / 256) n

/-- The host item for bits `w` of a table row: a command byte, or a request header with its bytes; bits above `nbits`
are zero. -/
def tableItem (nbits w : Nat) : HostItem :=
  let v := w % 2 ^ nbits
  match frameOfTableByte v with
  | some i => encode i
  | none =>
    let header : Word := BitVec.ofNat 32 v
    .request header (operandBytes (v / 2 ^ 32) (headerLen header).toNat)

/-- The instruction the decoder reads from a table row's bits. -/
def decodeTableWord (nbits w : Nat) : Option Instr :=
  match decode (tableItem nbits w) with
  | .ok i => some i
  | .error _ => none

end Sys2Proof
end

