-- ==== Sys2Proof/Config.lean ====
section
/-! DEFINITION. The static configuration inputs (00_scope.md R7 to R9, 10_state.md R28). They are fixed for a run
and written by no operation; State carries them so that a statement about every state is one about every configuration
(log 5). No value of the spec is left without a home, so there is no opaque constant here (INVENTORY.md, "What the
manual leaves open"). -/

namespace Sys2Proof

/-- PARITY (R9). The spec names only the value none; PRESUMED: even and odd are the other settings a serial port has
(log 14). No rule reads it. -/
inductive Parity
  | none
  | even
  | odd
  deriving DecidableEq, Repr

/-- The configuration (R28). -/
structure Config where
  /-- MAX_FRAME: the bound on STX through ETX inclusive; none is the unbounded original design (R7). -/
  maxFrame : Option Nat
  /-- READ_TIMEOUT: only whether it is none matters, because the model has no time (R8). The unit is left open (log 14). -/
  readTimeout : Option Nat
  baudRate : Nat
  dataBits : Nat
  stopBits : Nat
  parity : Parity
  deriving DecidableEq, Repr

/-- The spec's defaults (R7, R8, R9). -/
def Config.default : Config :=
  { maxFrame := some 4096, readTimeout := .none, baudRate := 115200, dataBits := 8, stopBits := 1, parity := .none }

/-- `some n` needs `n >= 2` (R7). -/
abbrev Config.wf (c : Config) : Prop :=
  ∀ n ∈ c.maxFrame, 2 ≤ n

end Sys2Proof
end

