-- ==== Sys2Proof/Machine/State.lean ====
section
/-! DEFINITION. The machine's state (10_state.md), the environment's events, the reasons a step can stop, and the state
after reset (R34). Every field is plain data. -/

namespace Sys2Proof.Machine

/-- `seq` (R22). -/
inductive SeqState
  | idle
  | sent
  | awaitingFrame
  | validated
  | failed
  deriving DecidableEq, Repr

/-- `rx` (R23). -/
inductive RxState
  | off
  | expectStx
  | body
  | expectChk
  deriving DecidableEq, Repr

/-- The operation in progress (R19, R66). -/
inductive HostOp
  | encode
  | send
  | exchange
  | decode
  deriving DecidableEq, Repr

/-- Result kinds (R121). Codes 10 to 15 are never produced and have no constructor; `unknownKey` is reserved for the
host (R130). -/
inductive Kind
  | ok
  | ioError
  | timeout
  | framingNoStx
  | framingNoEtx
  | framingTooLong
  | framingTrailing
  | checksumMismatch
  | requestRejected
  | unknownKey
  deriving DecidableEq, Repr

/-- The result record (R25). -/
structure Result where
  kind : Kind
  received : Byte
  computed : Byte
  bytes : List Byte
  deriving DecidableEq, Repr

/-- The result record's reset value (R34), to which TAKE also sets it back (R113). -/
def Result.initial : Result :=
  { kind := .ok, received := 0, computed := 0, bytes := [] }

/-- What TAKE delivers: the result and the resync bit (R113, R69). -/
structure Delivery where
  result : Result
  resync : Bool
  deriving DecidableEq, Repr

/-- The line-in environment's answer to a read (R87). -/
inductive ReadAnswer
  | byte (b : Byte)
  | timeout
  | ioFail
  deriving DecidableEq, Repr

/-- One move of the environment (R15); the block acts only by these (log 1). -/
inductive Event
  /-- The host presents a request or a command frame, takes the result, or asserts RESET. -/
  | host (item : HostItem)
  /-- The block accepts the `n`-th held request (R106, R115; log 7). -/
  | acceptHeld (n : Nat)
  /-- The write completes (R81). -/
  | txDone
  /-- The write fails after `p` bytes of the frame (R82). -/
  | txFail (p : Nat)
  /-- The outstanding read is answered (R87). -/
  | answer (a : ReadAnswer)
  deriving DecidableEq, Repr

/-- Reasons the machine stops. Each is safe: the model stops where the spec has no step. -/
inductive Fault
  /-- Raised by TAKE outside VALIDATED and FAILED, where R113 does not enable it. Safe (log 2). -/
  | takeNotEnabled
  /-- Raised by a write's completion or failure outside SENT, where R81 and R82 do not enable it. Safe (log 2). -/
  | writeNotEnabled
  /-- Raised by a read answer while `rx = RX_OFF`, or by a timeout while READ_TIMEOUT is none, where R87 and R92 do not
  enable it. Safe (log 2). -/
  | readNotEnabled
  /-- Raised by accepting a held request outside IDLE or where no such request is held, where R106 does not enable it.
  Safe (log 2). -/
  | acceptNotEnabled
  /-- Raised by the framer when its call of DECODE gives a framing error, which R91 calls unreachable. Safe (log 9). -/
  | framerUnreachable
  deriving DecidableEq, Repr

/-- Reasons there is no instruction to run. -/
inductive Refusal
  /-- Raised by exec for an instruction with no meaning yet: none is left. Safe. -/
  | notModelled (mnemonic : String)
  /-- Raised by a step whose host item is no instruction (log 8). Safe. -/
  | malformedItem (reason : DecodeError)
  deriving DecidableEq, Repr

/-- The machine. The first eight fields are the block's state, exactly the tuple of R19; then come the configuration
(R28), the observation histories (R29, R17), and the environment: the requests the host holds (R115) and its coming
events (R15). -/
structure State where
  seq : SeqState
  rx : RxState
  acc : List Byte
  curOp : Option HostOp
  curCmd : Byte
  curFrame : List Byte
  res : Result
  resyncNeeded : Bool
  config : Config
  lineOut : List Byte
  lineIn : List Byte
  taken : List Delivery
  held : List Request
  agenda : List Event
  deriving DecidableEq, Repr

/-- The state after reset (R34), with nothing presented and nothing yet on the line (log 13). -/
def State.reset : State :=
  { seq := .idle
    rx := .off
    acc := []
    curOp := none
    curCmd := 0
    curFrame := []
    res := Result.initial
    resyncNeeded := false
    config := Config.default
    lineOut := []
    lineIn := []
    taken := []
    held := []
    agenda := [] }

/-- What a step or an instruction answers. -/
abbrev Answer := Host.Outcome State Fault Refusal

end Sys2Proof.Machine
end

