-- ==== Sys2Proof/Machine/Operands.lean ====
section
/-! DEFINITION. The operand forms: byte sequences (00_scope.md R13), and the three pure functions over them, CHECKSUM
(R73), ENCODE (R74) and DECODE (R98). -/

namespace Sys2Proof.Machine

/-- `xs[i:j]` (R13). -/
def slice (xs : List Byte) (i j : Nat) : List Byte :=
  (xs.drop i).take (j - i)

/-- `sum(xs)`, exact (R13). -/
def byteSum : List Byte → Nat
  | [] => 0
  | b :: bs => b.toNat + byteSum bs

/-- `first_index(xs, v, from)` (R13): the least index at or after `start` whose element is `v`. -/
def firstIndex (v : Byte) : List Byte → (start : Nat) → Option Nat
  | [], _ => none
  | b :: bs, 0 => if b = v then some 0 else (firstIndex v bs 0).map (· + 1)
  | _ :: bs, start + 1 => (firstIndex v bs start).map (· + 1)

/-- CHECKSUM (R73). -/
def checksum (bs : List Byte) : Byte :=
  BitVec.ofNat 8 (byteSum bs)

/-- ENCODE (R74). -/
def encodeFrame (c : Byte) (d : List Byte) : List Byte :=
  [STX, c] ++ d ++ [ETX, checksum ([c] ++ d ++ [ETX])]

/-- The answers of DECODE (R98). -/
inductive DecodeResult
  | ok (payload : List Byte) (computed : Byte)
  | noStx
  | noEtx
  | trailing
  | mismatch (received computed : Byte)
  deriving DecidableEq, Repr

/-- DECODE (R98): the checks in the order 1, 2, 2a, 3 (R99). -/
def decodeFrame (f : List Byte) (k : Byte) : DecodeResult :=
  if f.head? ≠ some STX then .noStx
  else
    match firstIndex ETX f 1 with
    | none => .noEtx
    | some e =>
      if e ≠ f.length - 1 then .trailing
      else if k ≠ checksum (slice f 1 (e + 1)) then .mismatch k (checksum (slice f 1 (e + 1)))
      else .ok (slice f 1 e) (checksum (slice f 1 (e + 1)))

end Sys2Proof.Machine
end

