-- ==== Sys2Proof/Machine/Flags.lean ====
section
/-! DEFINITION. Codes, flags and the words the host reads: the derived flags (10_state.md R32), the kind codes
(60_exceptions.md R121), RES0 and RES1 (30_encoding.md R69) and STATUS (R70). -/

namespace Sys2Proof.Machine

/-- The codes of R22. -/
def SeqState.code : SeqState → BitVec 3
  | .idle => 0
  | .sent => 1
  | .awaitingFrame => 2
  | .validated => 3
  | .failed => 4

/-- The codes of R23. -/
def RxState.code : RxState → BitVec 2
  | .off => 0
  | .expectStx => 1
  | .body => 2
  | .expectChk => 3

/-- The codes of R121. -/
def Kind.code : Kind → BitVec 4
  | .ok => 0
  | .ioError => 1
  | .timeout => 2
  | .framingNoStx => 3
  | .framingNoEtx => 4
  | .framingTooLong => 5
  | .framingTrailing => 6
  | .checksumMismatch => 7
  | .requestRejected => 8
  | .unknownKey => 9

/-- `busy = (seq in {SENT, AWAITING_FRAME})` (R32). -/
def State.busy (s : State) : Bool :=
  decide (s.seq = .sent) || decide (s.seq = .awaitingFrame)

/-- `result_ready = (seq in {VALIDATED, FAILED})` (R32, R137). -/
def State.resultReady (s : State) : Bool :=
  decide (s.seq = .validated) || decide (s.seq = .failed)

/-- The STATUS word, read without side effect (R70). -/
def State.statusWord (s : State) : Word :=
  (0 : BitVec 26) ++ BitVec.ofBool s.resyncNeeded ++ s.rx.code ++ s.seq.code

/-- RES0 of a delivered result (R69). -/
def Delivery.res0 (d : Delivery) : Word :=
  (0 : BitVec 7) ++ BitVec.ofBool d.resync ++ d.result.computed ++ d.result.received ++ (0 : BitVec 4) ++
    d.result.kind.code

/-- RES1 of a delivered result: the number of its bytes, in 32 bits (R69; log 12). -/
def Delivery.res1 (d : Delivery) : Word :=
  BitVec.ofNat 32 d.result.bytes.length

/-- The kinds that mark the line when a write or the framer posts them (R133). A host DECODE that posts FRAMING_NO_STX
does not go through the line and marks nothing. -/
def Kind.marksLine : Kind → Bool
  | .ok => false
  | .ioError => true
  | .timeout => true
  | .framingNoStx => true
  | .framingNoEtx => false
  | .framingTooLong => true
  | .framingTrailing => false
  | .checksumMismatch => false
  | .requestRejected => false
  | .unknownKey => false

/-- `acc` already holds MAX_FRAME bytes (R89). -/
def atBound (maxFrame : Option Nat) (acc : List Byte) : Bool :=
  match maxFrame with
  | none => false
  | some n => decide (n ≤ acc.length)

/-- The bound check of R89 in a state. -/
def State.atBound (s : State) : Bool :=
  Machine.atBound s.config.maxFrame s.acc

end Sys2Proof.Machine
end

