-- ==== Sys2Proof/Machine/Ops.lean ====
section
/-! DEFINITION. The shared operations: presenting a request, posting a result, raising an error and returning from it,
and the moves of the line. The block has no memory (20_memory.md R37) and no trap (60_exceptions.md R131): raising an
error is `post` with an error kind, and the return is TAKE (R134). -/

namespace Sys2Proof.Machine

/-! ## Results and errors -/

/-- `post(kind, received, computed, bytes)` (R112). -/
def post (kind : Kind) (received computed : Byte) (bytes : List Byte) (s : State) : State :=
  { s with
    res := { kind := kind, received := received, computed := computed, bytes := bytes }
    seq := if kind = .ok then .validated else .failed }

/-- An error that may leave the rest of a frame in the line: `resync_needed` is set and the error posted with zeros and
no bytes (R132, R133). -/
def raiseLineError (kind : Kind) (s : State) : State :=
  post kind 0 0 [] { s with resyncNeeded := true }

/-- The host receives the result and the resync bit (R113). -/
def deliver (s : State) : State :=
  { s with taken := s.taken ++ [{ result := s.res, resync := s.resyncNeeded }] }

/-- The result goes back to its reset value and the block to IDLE (R113). -/
def retire (s : State) : State :=
  { s with res := Result.initial, curOp := none, curCmd := 0, seq := .idle }

/-! ## Requests -/

/-- A request presented outside IDLE stays with the host (R106, R115). -/
def hold (r : Request) (s : State) : State :=
  { s with held := s.held ++ [r] }

/-- The host presents `r`: in IDLE it is accepted, which runs its operation's first step at once (R106); otherwise it is
held (R115). -/
def submit (r : Request) (accepted : State → State) (s : State) : Answer :=
  .next (if s.seq = .idle then accepted s else hold r s)

/-- Acceptance of a legal request (R106). -/
def beginOp (op : HostOp) (cmd : Byte) (s : State) : State :=
  { s with curOp := some op, curCmd := cmd }

/-- Acceptance of a SEND or EXCHANGE: the encoded frame waits for its write (R108, R109). -/
def startWrite (op : HostOp) (cmd : Byte) (data : List Byte) (s : State) : State :=
  { beginOp op cmd s with curFrame := encodeFrame cmd data, seq := .sent }

/-- Posting the answer of a host DECODE (R110). -/
def postDecoded (k : Byte) (r : DecodeResult) (s : State) : State :=
  match r with
  | .ok payload computed => post .ok k computed payload s
  | .mismatch received computed => post .checksumMismatch received computed [] s
  | .noStx => post .framingNoStx 0 0 [] s
  | .noEtx => post .framingNoEtx 0 0 [] s
  | .trailing => post .framingTrailing 0 0 [] s

/-- Rejection of an illegal request (R111). `cur_cmd` is not written (log 11). -/
def reject (s : State) : State :=
  post .requestRejected 0 0 [] { s with curOp := none }

/-! ## The line -/

/-- `bytes` reach the line and the frame is gone from `cur_frame` (R81, R82). -/
def lineWrite (bytes : List Byte) (s : State) : State :=
  { s with lineOut := s.lineOut ++ bytes, curFrame := [] }

/-- A read consumes its byte (R45). -/
def consume (b : Byte) (s : State) : State :=
  { s with lineIn := s.lineIn ++ [b] }

/-- Arming the receiver (R86, R81). -/
def arm (s : State) : State :=
  { s with seq := .awaitingFrame, rx := .expectStx, acc := [] }

/-- Disarming the receiver (R86). -/
def disarm (s : State) : State :=
  { s with rx := .off, acc := [] }

/-! ## Reset -/

/-- Every element of R19 takes its reset value; configuration, histories and what is the environment's stay (R34, R143). -/
def clearBlock (s : State) : State :=
  { State.reset with
    config := s.config
    lineOut := s.lineOut
    lineIn := s.lineIn
    taken := s.taken
    held := s.held
    agenda := s.agenda }

end Sys2Proof.Machine
end

