-- ==== Sys2Proof/Machine/Commands.lean ====
section
/-! DEFINITION. The four commands (40_tx_encoder.md R77 to R80), each the fixed use of SEND or EXCHANGE that R55 gives
it. -/

namespace Sys2Proof.Machine

/-- STATUS_QUERY: `EXCHANGE 0x41, []` (R77). -/
def execStatusQuery (s : State) : Answer :=
  submit { op := 2, rsvd := 0, cmd := cmdStatus, bytes := [] } (startWrite .exchange cmdStatus []) s

/-- DISPLAY_QUERY: `EXCHANGE 0x4C, []` (R78). -/
def execDisplayQuery (s : State) : Answer :=
  submit { op := 2, rsvd := 0, cmd := cmdDisplay, bytes := [] } (startWrite .exchange cmdDisplay []) s

/-- KEY_PRESS: `SEND 0x4B, [k]` (R79). -/
def execKeyPress (key : Byte) (s : State) : Answer :=
  submit { op := 1, rsvd := 0, cmd := cmdKey, bytes := [key] } (startWrite .send cmdKey [key]) s

/-- TUNE: `SEND 0x54, [00,00,00,00,00]` (R80). -/
def execTune (s : State) : Answer :=
  submit { op := 1, rsvd := 0, cmd := cmdTune, bytes := [0, 0, 0, 0, 0] }
    (startWrite .send cmdTune [0, 0, 0, 0, 0]) s

end Sys2Proof.Machine
end

