-- ==== Sys2Proof/Machine/Control.lean ====
section
/-! DEFINITION. TAKE (43_exchange.md R113) and RESET (70_reset_and_hazards.md R143). -/

namespace Sys2Proof.Machine

/-- TAKE (R113); outside VALIDATED and FAILED it is not enabled (log 2). -/
def execTake (s : State) : Answer :=
  if s.seq = .validated ∨ s.seq = .failed then .next (retire (deliver s))
  else .fault .takeNotEnabled

/-- RESET (R143), enabled in every state. In SENT the first `cut` bytes of the frame reach the line (R144; a `cut`
above the frame's length is the whole frame, log 6); a waiting result is discarded undelivered. -/
def execReset (cut : Nat) (s : State) : Answer :=
  .next (clearBlock (if s.seq = .sent then lineWrite (s.curFrame.take cut) s else s))

end Sys2Proof.Machine
end

