-- ==== Sys2Proof/Machine/HostOps.lean ====
section
/-! DEFINITION. The host operations (43_exchange.md): ENCODE, SEND, EXCHANGE, DECODE and the illegal request. -/

namespace Sys2Proof.Machine

/-- ENCODE (R107): OK with the frame, the line untouched. -/
def execEncode (cmd : Byte) (data : List Byte) (s : State) : Answer :=
  submit { op := 0, rsvd := 0, cmd := cmd, bytes := data }
    (fun s => post .ok 0 0 (encodeFrame cmd data) (beginOp .encode cmd s)) s

/-- SEND (R108). -/
def execSend (cmd : Byte) (data : List Byte) (s : State) : Answer :=
  submit { op := 1, rsvd := 0, cmd := cmd, bytes := data } (startWrite .send cmd data) s

/-- EXCHANGE (R109). -/
def execExchange (cmd : Byte) (data : List Byte) (s : State) : Answer :=
  submit { op := 2, rsvd := 0, cmd := cmd, bytes := data } (startWrite .exchange cmd data) s

/-- DECODE (R110): the validator's answer, the line untouched. -/
def execDecode (chk : Byte) (frame : List Byte) (s : State) : Answer :=
  submit { op := 3, rsvd := 0, cmd := chk, bytes := frame }
    (fun s => postDecoded chk (decodeFrame frame chk) (beginOp .decode chk s)) s

/-- An illegal request (R111). -/
def execReservedOp (op : BitVec 3) (rsvd : BitVec 5) (cmd : Byte) (bytes : List Byte) (s : State) : Answer :=
  submit { op := op, rsvd := rsvd, cmd := cmd, bytes := bytes } reject s

end Sys2Proof.Machine
end

