-- ==== Sys2Proof/Machine/Dispatch.lean ====
section
/-! DEFINITION. exec: one arm per row of spec/opcode_table.json. -/

namespace Sys2Proof.Machine

def exec (i : Instr) (s : State) : Host.Outcome State Fault Refusal :=
  match i with
  | .statusQuery => Sys2Proof.Machine.execStatusQuery s
  | .displayQuery => Sys2Proof.Machine.execDisplayQuery s
  | .keyPress key => Sys2Proof.Machine.execKeyPress key s
  | .tune => Sys2Proof.Machine.execTune s
  | .encode cmd data => Sys2Proof.Machine.execEncode cmd data s
  | .send cmd data => Sys2Proof.Machine.execSend cmd data s
  | .exchange cmd data => Sys2Proof.Machine.execExchange cmd data s
  | .decode chk frame => Sys2Proof.Machine.execDecode chk frame s
  | .reservedOp op rsvd cmd bytes => Sys2Proof.Machine.execReservedOp op rsvd cmd bytes s
  | .take => Sys2Proof.Machine.execTake s
  | .reset cut => Sys2Proof.Machine.execReset cut s

end Sys2Proof.Machine
end

