-- ==== Sys2Proof/Machine/Line.lean ====
section
/-! DEFINITION. The moves of the two line environments: the write completes or fails (40_tx_encoder.md R81, R82), and a
read is answered in each receiver state (41_rx_framer.md R88 to R93). -/

namespace Sys2Proof.Machine

/-! ## The write -/

/-- The step of R81 after its frame is on the line: SEND posts OK, otherwise the receiver is armed. -/
def afterWrite (s : State) : State :=
  if s.curOp = some .send then post .ok 0 0 [] s else arm s

/-- The write completes (R81). -/
def lineTxDone (s : State) : Answer :=
  if s.seq = .sent then .next (afterWrite (lineWrite s.curFrame s)) else .fault .writeNotEnabled

/-- The write fails after `p` bytes (R82; a `p` above the frame's length is the whole frame, log 6). -/
def lineTxFail (p : Nat) (s : State) : Answer :=
  if s.seq = .sent then .next (raiseLineError .ioError (lineWrite (s.curFrame.take p) s))
  else .fault .writeNotEnabled

/-! ## The framer -/

/-- An error of the framer disarms the receiver and marks the line (R88, R89, R92, R93). -/
def framerError (kind : Kind) (s : State) : State :=
  raiseLineError kind (disarm s)

/-- A byte in RX_EXPECT_STX (R88), its consumption done. -/
def readStx (b : Byte) (s : State) : State :=
  if b = STX then { s with acc := [STX], rx := .body } else framerError .framingNoStx s

/-- A byte in RX_BODY (R89), its consumption done: the bound comes before the ETX test (R136 item 5). -/
def readBody (b : Byte) (s : State) : State :=
  if s.atBound then framerError .framingTooLong s
  else { s with acc := s.acc ++ [b], rx := if b = ETX then .expectChk else s.rx }

/-- A byte in RX_EXPECT_CHK (R90), its consumption done, and the posting of its outcome (R91). -/
def readChk (b : Byte) (s : State) : Answer :=
  match decodeFrame s.acc b with
  | .ok payload computed => .next (post .ok b computed payload (disarm s))
  | .mismatch received computed => .next (post .checksumMismatch received computed [] (disarm s))
  | .noStx => .fault .framerUnreachable
  | .noEtx => .fault .framerUnreachable
  | .trailing => .fault .framerUnreachable

/-- The read is answered with a byte. -/
def lineByte (b : Byte) (s : State) : Answer :=
  match s.rx with
  | .off => .fault .readNotEnabled
  | .expectStx => .next (readStx b (consume b s))
  | .body => .next (readBody b (consume b s))
  | .expectChk => readChk b (consume b s)

/-- The read times out (R92): only while one is outstanding and READ_TIMEOUT is not none. -/
def lineTimeout (s : State) : Answer :=
  if s.rx ≠ .off ∧ s.config.readTimeout.isSome then .next (framerError .timeout s)
  else .fault .readNotEnabled

/-- The read fails (R93). -/
def lineIoFail (s : State) : Answer :=
  if s.rx ≠ .off then .next (framerError .ioError s) else .fault .readNotEnabled

/-- The answer to the outstanding read (R87). -/
def lineAnswer (a : ReadAnswer) (s : State) : Answer :=
  match a with
  | .byte b => lineByte b s
  | .timeout => lineTimeout s
  | .ioFail => lineIoFail s

end Sys2Proof.Machine
end

