-- ==== Sys2Proof/Machine/Events.lean ====
section
/-! DEFINITION. What each event of the environment does: a host item is decoded and executed, a held request is accepted,
and the line's moves go to Machine/Line.lean. -/

namespace Sys2Proof.Machine

/-- A host item: decode, then execute. -/
def runItem (item : HostItem) (s : State) : Answer :=
  match decode item with
  | .ok i => exec i s
  | .error e => .refused (.malformedItem e)

/-- In IDLE the block accepts a request the host holds (R106, R115). Which of several is not stated, so the event names
it (log 7). -/
def acceptHeld (n : Nat) (s : State) : Answer :=
  match s.held[n]? with
  | some r =>
    if s.seq = .idle then exec r.toInstr { s with held := s.held.eraseIdx n } else .fault .acceptNotEnabled
  | none => .fault .acceptNotEnabled

/-- One event. -/
def runEvent (e : Event) (s : State) : Answer :=
  match e with
  | .host item => runItem item s
  | .acceptHeld n => acceptHeld n s
  | .txDone => lineTxDone s
  | .txFail p => lineTxFail p s
  | .answer a => lineAnswer a s

end Sys2Proof.Machine
end

