-- ==== Sys2Proof/Machine/Step.lean ====
section
/-! DEFINITION. One step of the machine: the environment's next event happens; while it makes none, the block waits. -/

namespace Sys2Proof.Machine

/-- One step (R15). With no event on the agenda nothing happens: the block waits, in IDLE for a request, in SENT for the
write (R83), in AWAITING_FRAME for an answer (R87, R97), in VALIDATED and FAILED for TAKE (log 16). -/
def step (s : State) : Host.Outcome State Fault Refusal :=
  match s.agenda with
  | [] => .next s
  | e :: rest => runEvent e { s with agenda := rest }

/-- The state whose next event is the host presenting a table row's word (log 1, log 4). -/
def State.withFetchWord (s : State) (nbits w : Nat) : State :=
  { s with agenda := .host (tableItem nbits w) :: s.agenda }

end Sys2Proof.Machine
end

