-- ==== Sys2Proof/Machine/Environment.lean ====
section
/-! DEFINITION. Steps and endless runs under an environment that goes on making events (00_scope.md R15). The agenda of a
state is finite, so one state alone says only how a run begins; here the environment adds an event before each step, or
stays silent, and a run may go on for ever (41_rx_framer.md R97, 40_tx_encoder.md R83; log 20). -/

namespace Sys2Proof.Machine

/-- The environment makes one more event, after those it has already made, or none. -/
def State.offer (e : Option Event) (s : State) : State :=
  { s with agenda := s.agenda ++ e.toList }

/-- One step under the environment's choice. -/
def environmentStep (e : Option Event) (s : State) : Answer :=
  step (s.offer e)

/-- The transition relation: some choice of the environment takes `s` to `t` (R15). -/
def Moves (s t : State) : Prop :=
  ∃ e, environmentStep e s = .next t

/-- An environment without end: its choice before each step. -/
abbrev Environment := Nat → Option Event

/-- An endless run under an environment. -/
def Follows (env : Environment) (states : Nat → State) : Prop :=
  ∀ k, environmentStep (env k) (states k) = .next (states (k + 1))

/-- The environment that never makes an event: a write never ended (R83), a silent device (R97). -/
def silence : Environment :=
  fun _ => none

/-- The device that answers every read with the next byte of an endless stream (R97). -/
def byteStream (bytes : Nat → Byte) : Environment :=
  fun k => some (.answer (.byte (bytes k)))

/-- The first `k` bytes of an endless stream. -/
def streamed (bytes : Nat → Byte) (k : Nat) : List Byte :=
  (List.range k).map bytes

/-- Choices that leave the device of R97 as it is: the host is not resetting the block, and the line is silent, or the
block reads in RX_BODY and is answered with a byte that is not ETX. -/
def NeverEndsTheFrame (rx : RxState) : Option Event → Prop
  | none => True
  | some (.host (.resetInput _)) => False
  | some (.host _) => True
  | some (.acceptHeld _) => True
  | some .txDone => True
  | some (.txFail _) => True
  | some (.answer (.byte b)) => rx = .body ∧ b ≠ ETX
  | some (.answer .timeout) => True
  | some (.answer .ioFail) => False

end Sys2Proof.Machine
end

