-- ==== Sys2Proof/Machine/Pseudo.lean ====
section
/-! DEFINITION. The pseudo-operations of 30_encoding.md R72: the document's client operations as host steps, and what the
host makes of the delivered result. They are the host's, not the block's: KEY_TABLE is an argument (00_scope.md R11;
log 15). -/

namespace Sys2Proof.Machine

/-- A symbolic key name. The source gives no type for it (log 15). -/
abbrev SymbolicKey := String

/-- GET_STATUS, GET_DISPLAY, SEND_KEY, SEND_TUNE (R72). -/
inductive Pseudo
  | getStatus
  | getDisplay
  | sendKey (key : SymbolicKey)
  | sendTune
  deriving DecidableEq, Repr

/-- What the host reports to its caller (R72). -/
inductive HostReport
  | statusResponse (payload : List Byte)
  | displayResponse (payload : List Byte)
  /-- A command without a response was sent (DESIGN CHOICE, log 15: R72 states no such report). -/
  | sent
  /-- The error kind, with the two bytes that a checksum mismatch carries (R128; zero for the other kinds). -/
  | error (kind : Kind) (received computed : Byte)
  deriving DecidableEq, Repr

/-- The two entries of KEY_TABLE that the source gives (R11). -/
def KeyTableAgrees (keyTable : SymbolicKey → Option Byte) : Prop :=
  keyTable "ARROW_DOWN" = some 9 ∧ keyTable "NUM_5" = some 28

/-- The host steps of a pseudo-operation, or the host's own UnknownKeyError, for which nothing is issued (R72, R130). -/
def Pseudo.expand (keyTable : SymbolicKey → Option Byte) : Pseudo → Except Kind (List Instr)
  | .getStatus => .ok [.exchange cmdStatus [], .take]
  | .getDisplay => .ok [.exchange cmdDisplay [], .take]
  | .sendKey key =>
    match keyTable key with
    | some k => .ok [.send cmdKey [k], .take]
    | none => .error .unknownKey
  | .sendTune => .ok [.send cmdTune [0, 0, 0, 0, 0], .take]

/-- The host's report of a delivered result: for GET_STATUS and GET_DISPLAY the payload in its wrapper when it is OK (R72);
an error with its kind, for every operation (R72, R141). DESIGN CHOICE (log 15): for SEND_KEY and SEND_TUNE R72 states no
report of an OK result; the model reports `sent`. -/
def Pseudo.report (p : Pseudo) (d : Delivery) : HostReport :=
  if d.result.kind = .ok then
    match p with
    | .getStatus => .statusResponse d.result.bytes
    | .getDisplay => .displayResponse d.result.bytes
    | .sendKey _ => .sent
    | .sendTune => .sent
  else .error d.result.kind d.result.received d.result.computed

end Sys2Proof.Machine
end

