-- ==== Sys2Proof/Machine/Functions.lean ====
section
/-! DEFINITION. The spec's own whole-operation functions: RECV, the framer over a script of answers (41_rx_framer.md R96),
and EXCH and SENDF, an exchange and a send (43_exchange.md R120). The machine does not call them; it runs the step rules.
They are here so that the two accounts can be compared. -/

namespace Sys2Proof.Machine

/-- The record of an error: zeros and no bytes (R118). -/
def errorResult (kind : Kind) : Result :=
  { kind := kind, received := 0, computed := 0, bytes := [] }

/-- The result record of a DECODE with checksum byte `k` (R110, R118). -/
def decodedResult (k : Byte) : DecodeResult → Result
  | .ok payload computed => { kind := .ok, received := k, computed := computed, bytes := payload }
  | .mismatch received computed => { kind := .checksumMismatch, received := received, computed := computed, bytes := [] }
  | .noStx => errorResult .framingNoStx
  | .noEtx => errorResult .framingNoEtx
  | .trailing => errorResult .framingTrailing

/-- CHK of R96. -/
def recvChk (acc : List Byte) (k : Nat) : List ReadAnswer → Option (Result × Nat)
  | [] => none
  | .timeout :: _ => some (errorResult .timeout, k + 1)
  | .ioFail :: _ => some (errorResult .ioError, k + 1)
  | .byte b :: _ => some (decodedResult b (decodeFrame acc b), k + 1)

/-- BODY of R96. -/
def recvBody (maxFrame : Option Nat) : (acc : List Byte) → (k : Nat) → List ReadAnswer → Option (Result × Nat)
  | _, _, [] => none
  | _, k, .timeout :: _ => some (errorResult .timeout, k + 1)
  | _, k, .ioFail :: _ => some (errorResult .ioError, k + 1)
  | acc, k, .byte b :: rest =>
    if atBound maxFrame acc then some (errorResult .framingTooLong, k + 1)
    else if b = ETX then recvChk (acc ++ [ETX]) (k + 1) rest
    else recvBody maxFrame (acc ++ [b]) (k + 1) rest

/-- RECV of R96: the result and the number of answers used, or none while it is still waiting. -/
def recv (maxFrame : Option Nat) : List ReadAnswer → Option (Result × Nat)
  | [] => none
  | .timeout :: _ => some (errorResult .timeout, 1)
  | .ioFail :: _ => some (errorResult .ioError, 1)
  | .byte b :: rest =>
    if b = STX then recvBody maxFrame [STX] 1 rest else some (errorResult .framingNoStx, 1)

/-- The bytes among some answers: what a receive that used them consumed (R45). -/
def answerBytes : List ReadAnswer → List Byte
  | [] => []
  | .byte b :: rest => b :: answerBytes rest
  | .timeout :: rest => answerBytes rest
  | .ioFail :: rest => answerBytes rest

/-- How the line-out environment ends a write (R81, R82). -/
inductive WriteAnswer
  | done
  | fail (p : Nat)
  deriving DecidableEq, Repr

/-- The outcome of an operation that uses the line (R120). -/
structure LineOutcome where
  result : Result
  /-- What `line_out` grows by. -/
  sent : List Byte
  /-- The number of answers used. -/
  used : Nat
  deriving DecidableEq, Repr

/-- SENDF of R120. -/
def sendOutcome (cmd : Byte) (data : List Byte) : WriteAnswer → LineOutcome
  | .done => { result := Result.initial, sent := encodeFrame cmd data, used := 0 }
  | .fail p => { result := errorResult .ioError, sent := (encodeFrame cmd data).take p, used := 0 }

/-- EXCH of R120; none while it is still waiting. -/
def exchangeOutcome (maxFrame : Option Nat) (cmd : Byte) (data : List Byte) (w : WriteAnswer)
    (script : List ReadAnswer) : Option LineOutcome :=
  match w with
  | .fail p => some { result := errorResult .ioError, sent := (encodeFrame cmd data).take p, used := 0 }
  | .done => (recv maxFrame script).map fun r => { result := r.1, sent := encodeFrame cmd data, used := r.2 }

end Sys2Proof.Machine
end

