-- ==== Sys2Proof/Safety.lean ====
section
/-! DEFINITION. What a good state is (10_state.md R30, R36), which events a state enables, runs, and when two states are
the same but for what no operation may depend on (R31). -/

namespace Sys2Proof.Machine

/-- The invariants of R30, item by item; and, where R30 leaves it to other rules, that the configuration is legal (R7),
that IDLE has `cur_cmd` at its reset value (R27), that SENT and AWAITING_FRAME have the operation that leads there (R108,
R109, R81), and that an error carries no bytes (R132). -/
structure State.Inv (s : State) : Prop where
  configLegal : s.config.wf
  /-- R30 item 1. -/
  readingIff : s.rx ≠ .off ↔ s.seq = .awaitingFrame
  /-- R30 item 2. -/
  offEmpty : s.rx = .off → s.acc = []
  /-- R30 item 3. -/
  expectStxEmpty : s.rx = .expectStx → s.acc = []
  /-- R30 item 4. -/
  bodyShape : s.rx = .body → ∃ p, s.acc = STX :: p ∧ ETX ∉ p
  /-- R30 item 5. -/
  chkShape : s.rx = .expectChk → ∃ p, s.acc = STX :: (p ++ [ETX]) ∧ ETX ∉ p
  /-- R30 item 6. -/
  accBound : ∀ n ∈ s.config.maxFrame, s.acc.length ≤ n
  /-- R30 item 7. -/
  sentIff : s.seq = .sent ↔ s.curFrame ≠ []
  /-- R30 item 8. -/
  idleClean : s.seq = .idle → s.curOp = none ∧ s.curCmd = 0 ∧ s.res = Result.initial
  sentOp : s.seq = .sent → s.curOp = some .send ∨ s.curOp = some .exchange
  awaitingOp : s.seq = .awaitingFrame → s.curOp = some .exchange
  /-- R30 item 9. -/
  validatedOk : s.seq = .validated → s.res.kind = .ok
  /-- R30 item 9, and R132. -/
  failedError : s.seq = .failed → s.res.kind ≠ .ok ∧ s.res.bytes = []

/-- The capacities of R36: a frame waiting for its write has at most 65535 + 4 bytes; a result has at most that many, or
MAX_FRAME - 2; a held request fits the len field (R67). -/
structure State.Bounded (s : State) : Prop where
  frame : s.curFrame.length ≤ 65539
  result : ∀ n ∈ s.config.maxFrame, s.res.bytes.length ≤ max 65539 (n - 2)
  held : ∀ r ∈ s.held, r.bytes.length < 65536

/-- Event `e` makes the block run instruction `i`: the host presents it, or a held request is accepted. -/
def Runs (s : State) (e : Event) (i : Instr) : Prop :=
  (∃ item, e = .host item ∧ decode item = .ok i) ∨
    ∃ n r, e = .acceptHeld n ∧ s.held[n]? = some r ∧ r.toInstr = i

/-- The instruction's request is a SEND or an EXCHANGE: SEND, EXCHANGE and the four command rows (R55, R66). -/
def usesLine (i : Instr) : Prop :=
  ∃ r, requestOf i = some r ∧ r.rsvd = 0 ∧ (r.op = 1 ∨ r.op = 2)

/-- The rows of R114: event `e` may move `seq` from its value in `s` to the given one. -/
inductive SeqMove (s : State) (e : Event) : SeqState → Prop
  | rejected (op : BitVec 3) (rsvd : BitVec 5) (cmd : Byte) (bytes : List Byte) :
    s.seq = .idle → Runs s e (.reservedOp op rsvd cmd bytes) → SeqMove s e .failed
  | encoded (cmd : Byte) (data : List Byte) : s.seq = .idle → Runs s e (.encode cmd data) → SeqMove s e .validated
  | decodedOk (chk : Byte) (frame : List Byte) :
    s.seq = .idle → Runs s e (.decode chk frame) → SeqMove s e .validated
  | decodedError (chk : Byte) (frame : List Byte) :
    s.seq = .idle → Runs s e (.decode chk frame) → SeqMove s e .failed
  | writing (i : Instr) : s.seq = .idle → usesLine i → Runs s e i → SeqMove s e .sent
  | sendDone : s.seq = .sent → e = .txDone → s.curOp = some .send → SeqMove s e .validated
  | exchangeDone : s.seq = .sent → e = .txDone → s.curOp = some .exchange → SeqMove s e .awaitingFrame
  | writeFailed (p : Nat) : s.seq = .sent → e = .txFail p → SeqMove s e .failed
  | receivedOk (a : ReadAnswer) : s.seq = .awaitingFrame → e = .answer a → SeqMove s e .validated
  | receivedError (a : ReadAnswer) : s.seq = .awaitingFrame → e = .answer a → SeqMove s e .failed
  | taken : s.seq = .validated ∨ s.seq = .failed → Runs s e .take → SeqMove s e .idle
  | reset (cut : Nat) : Runs s e (.reset cut) → SeqMove s e .idle

/-- `n` steps, stopping at the first fault or refusal. -/
def run : Nat → State → Answer
  | 0, s => .next s
  | n + 1, s =>
    match step s with
    | .next t => run n t
    | .fault r => .fault r
    | .refused r => .refused r

/-- Two states that differ at most in `resync_needed` and in the histories: what R31 says no outcome depends on. -/
structure State.Similar (s t : State) : Prop where
  seq : s.seq = t.seq
  rx : s.rx = t.rx
  acc : s.acc = t.acc
  curOp : s.curOp = t.curOp
  curCmd : s.curCmd = t.curCmd
  curFrame : s.curFrame = t.curFrame
  res : s.res = t.res
  config : s.config = t.config
  held : s.held = t.held
  agenda : s.agenda = t.agenda

end Sys2Proof.Machine
end

