-- ==== Sys2Proof/Certificates/Slice0/Obligations.lean ====
section
/-! DEFINITION. The statements for the provers. Each docstring names the rules of spec/ it formalises. Where a rule is
marked there as a decision of the spec's own (D<n>) or as derived, and where the statement rests on a choice of the
model's (log <n>), the docstring says so. -/

open Sys2Proof Sys2Proof.Machine

/-! ## Encoding -/

/-- Decoding the encoding of a well-formed instruction gives it back, every operand at every value (R53, R56 to R59, R66,
R67; the header layout is the spec's decision D3; a command row as its frame is log 3). -/
def Obligations.DecodeInvertsEncode : Prop :=
  ∀ i : Instr, wellFormed i = true → decode (encode i) = .ok i

/-- Each host item has at most one meaning: what decodes is well-formed, and encoding it gives the item back (R66, R67,
R68; decision D3). -/
def Obligations.EncodeInvertsDecode : Prop :=
  ∀ (item : HostItem) (i : Instr), decode item = .ok i → wellFormed i = true ∧ encode i = item

/-- Words written out from the spec's encodings decode to their instructions (R56 to R59, R67; the request words are
those of 95_test_vectors.md L2.5). -/
def Obligations.SpecWordsDecode : Prop :=
  decode (.frame [0x02, 0x41, 0x03, 0x44]) = .ok .statusQuery ∧
  decode (.frame [0x02, 0x4C, 0x03, 0x4F]) = .ok .displayQuery ∧
  decode (.frame [0x02, 0x4B, 0x1C, 0x03, 0x6A]) = .ok (.keyPress 0x1C) ∧
  decode (.frame [0x02, 0x54, 0x00, 0x00, 0x00, 0x00, 0x00, 0x03, 0x57]) = .ok .tune ∧
  decode (.request 0x00014B00#32 [0x1C]) = .ok (.encode 0x4B [0x1C]) ∧
  decode (.request 0x00004101#32 []) = .ok (.send 0x41 []) ∧
  decode (.request 0x00004102#32 []) = .ok (.exchange 0x41 []) ∧
  decode (.request 0x00034403#32 [0x02, 0x41, 0x03]) = .ok (.decode 0x44 [0x02, 0x41, 0x03]) ∧
  decode (.request 0x00000004#32 []) = .ok (.reservedOp 4 0 0 []) ∧
  decode (.request 0x00000009#32 []) = .ok (.reservedOp 1 1 0 [])

/-- The frame that stands for a command row is ENCODE of its command byte and data (R77 to R80, R58; the checksums are
derived there). -/
def Obligations.CommandFramesAreEncodedFrames : Prop :=
  encode .statusQuery = .frame (encodeFrame 0x41 []) ∧
  encode .displayQuery = .frame (encodeFrame 0x4C []) ∧
  (∀ key : Byte, encode (.keyPress key) = .frame (encodeFrame 0x4B [key])) ∧
  encode .tune = .frame (encodeFrame 0x54 [0, 0, 0, 0, 0])

/-! ## The step -/

/-- A step whose next event is a host item that decodes to a well-formed instruction runs exactly that instruction, in
the state whose agenda has moved past it (R15, R106; the agenda is log 1). -/
def Obligations.StepRunsTheDecodedInstruction : Prop :=
  ∀ (s : State) (item : HostItem) (rest : List Event) (i : Instr),
    s.agenda = .host item :: rest → decode item = .ok i → wellFormed i = true →
    step s = exec i { s with agenda := rest }

/-- With no event from the environment the block waits, in every state (R83, R97; the stutter is log 16); and a host item
that is no instruction is refused by name (log 8). -/
def Obligations.StepWaitsOrRefusesWithoutAnInstruction : Prop :=
  (∀ s : State, s.agenda = [] → step s = .next s) ∧
  ∀ (s : State) (item : HostItem) (rest : List Event) (e : DecodeError),
    s.agenda = .host item :: rest → decode item = .error e → step s = .refused (.malformedItem e)

/-- A held request, when it is accepted in IDLE, means what its instruction meant when it was presented, and is held no
longer (R106, R115: "held ... until seq = IDLE"; decision D13; which one is accepted is log 7). -/
def Obligations.HeldRequestRunsAsPresented : Prop :=
  ∀ (s : State) (n : Nat) (rest : List Event) (i : Instr) (r : Request),
    s.agenda = .acceptHeld n :: rest → s.held[n]? = some r → requestOf i = some r → wellFormed i = true →
    s.seq = .idle →
    step s = exec i { s with agenda := rest, held := s.held.eraseIdx n }

/-! ## CHECKSUM, ENCODE and DECODE -/

/-- CHECKSUM is the exact sum of the bytes modulo 256, and an 8-bit accumulator from 0 gives the same (R73; the
accumulator is derived there). -/
def Obligations.ChecksumIsTheAccumulatedSum : Prop :=
  ∀ bs : List Byte,
    (checksum bs).toNat = (bs.map BitVec.toNat).sum % 256 ∧ checksum bs = bs.foldl (· + ·) 0

/-- The laws of R84, items 2 to 6 (derived there): order independence, concatenation, a single changed byte is always
seen, offsetting changes are not, zero bytes do not count. -/
def Obligations.ChecksumLaws : Prop :=
  (∀ xs ys : List Byte, xs.Perm ys → checksum xs = checksum ys) ∧
  (∀ xs ys : List Byte, checksum (xs ++ ys) = checksum xs + checksum ys) ∧
  (∀ (xs ys : List Byte) (a b : Byte), a ≠ b → checksum (xs ++ a :: ys) ≠ checksum (xs ++ b :: ys)) ∧
  (∀ (xs ys zs : List Byte) (a b d : Byte),
    checksum (xs ++ a :: (ys ++ b :: zs)) = checksum (xs ++ (a + d) :: (ys ++ (b - d) :: zs))) ∧
  (∀ xs ys : List Byte, checksum (xs ++ 0 :: ys) = checksum (xs ++ ys))

/-- The layout of an outbound frame, byte by byte, and that a completed write hands it to the line in that order, index 0
first (R53). -/
def Obligations.OutboundFrameLayout : Prop :=
  ∀ (c : Byte) (d : List Byte),
    (encodeFrame c d).length = d.length + 4 ∧
    (encodeFrame c d)[0]? = some 0x02 ∧
    (encodeFrame c d)[1]? = some c ∧
    (∀ i, i < d.length → (encodeFrame c d)[2 + i]? = d[i]?) ∧
    (encodeFrame c d)[d.length + 2]? = some 0x03 ∧
    (∃ k : Byte, (encodeFrame c d)[d.length + 3]? = some k ∧
      k.toNat = (([c] ++ d ++ [0x03]).map BitVec.toNat).sum % 256 ∧
      ∀ (s : State) (rest : List Event), s.agenda = .txDone :: rest → s.seq = .sent → s.curFrame = encodeFrame c d →
        ∃ t, step s = .next t ∧ t.lineOut = s.lineOut ++ ([0x02, c] ++ d ++ [0x03, k]))

/-- The checksum byte of an outbound frame covers the bytes at indices 1 through n + 2, so neither STX nor itself
(R54). -/
def Obligations.FrameChecksumCoversCommandThroughEtx : Prop :=
  ∀ (c : Byte) (d : List Byte),
    (encodeFrame c d)[d.length + 3]? = some (checksum (slice (encodeFrame c d) 1 (d.length + 3)))

/-- DECODE answers Ok exactly on a frame whose payload, every byte strictly between STX and the first ETX, has the
supplied checksum; on a frame of the block's own encoder the payload starts with the command byte (R98, R100, R104; that
bytes after the first ETX are no Ok is the spec's decision D9). -/
def Obligations.DecodeAcceptsExactlyTheFramedPayload : Prop :=
  (∀ (f : List Byte) (k : Byte) (p : List Byte) (comp : Byte),
    decodeFrame f k = .ok p comp ↔
      f = STX :: (p ++ [ETX]) ∧ ETX ∉ p ∧ k = comp ∧ comp = checksum (p ++ [ETX])) ∧
  ∀ (c : Byte) (d : List Byte) (k : Byte) (p : List Byte) (comp : Byte),
    decodeFrame ((encodeFrame c d).take (d.length + 3)) k = .ok p comp → p.head? = some c

/-- DECODE reports the first check that fails, in the order 1, 2, 2a, 3 (R99, R98; that check 2a exists is the spec's
decision D9). -/
def Obligations.DecodeReportsTheFirstFailingCheck : Prop :=
  ∀ (f : List Byte) (k : Byte),
    (f.head? ≠ some STX → decodeFrame f k = .noStx) ∧
    (∀ b, f = STX :: b → ETX ∉ b → decodeFrame f k = .noEtx) ∧
    (∀ p q, f = STX :: (p ++ ETX :: q) → ETX ∉ p → q ≠ [] → decodeFrame f k = .trailing) ∧
    (∀ p, f = STX :: (p ++ [ETX]) → ETX ∉ p → k ≠ checksum (p ++ [ETX]) →
      decodeFrame f k = .mismatch k (checksum (p ++ [ETX])))

/-- DECODE of the inputs of at most two bytes that R101 lists (derived there; the empty input is decision D8). -/
def Obligations.DecodeOfShortInputs : Prop :=
  ∀ k : Byte,
    decodeFrame [] k = .noStx ∧
    decodeFrame [0x02] k = .noEtx ∧
    decodeFrame [0x02, 0x03] k = (if k = 0x03 then .ok [] 0x03 else .mismatch k 0x03) ∧
    decodeFrame [0x03] k = .noStx

/-- Decoding the block's own frame gives the command byte and the data, unless one of them is ETX, and then TRAILING
(R103, derived there). -/
def Obligations.DecodeOfAnEncodedFrame : Prop :=
  ∀ (c : Byte) (d : List Byte) (k : Byte), (encodeFrame c d)[d.length + 3]? = some k →
    (c ≠ ETX → ETX ∉ d → decodeFrame ((encodeFrame c d).take (d.length + 3)) k = .ok (c :: d) k) ∧
    (c = ETX ∨ ETX ∈ d → decodeFrame ((encodeFrame c d).take (d.length + 3)) k = .trailing)

/-! ## The host operations -/

/-- ENCODE in IDLE posts OK with the frame and changes nothing else (R107, decision D22; R106). -/
def Obligations.EncodePostsTheFrame : Prop :=
  ∀ (cmd : Byte) (data : List Byte) (s : State), s.seq = .idle →
    exec (.encode cmd data) s = .next
      { s with
        curOp := some .encode
        curCmd := cmd
        res := { kind := .ok, received := 0, computed := 0, bytes := encodeFrame cmd data }
        seq := .validated }

/-- SEND and EXCHANGE in IDLE put the encoded frame before the line and change nothing else (R108, R109, R106). -/
def Obligations.SendAndExchangeStartTheWrite : Prop :=
  ∀ (cmd : Byte) (data : List Byte) (s : State), s.seq = .idle →
    exec (.send cmd data) s = .next
      { s with curOp := some .send, curCmd := cmd, curFrame := encodeFrame cmd data, seq := .sent } ∧
    exec (.exchange cmd data) s = .next
      { s with curOp := some .exchange, curCmd := cmd, curFrame := encodeFrame cmd data, seq := .sent }

/-- The four command rows in IDLE put their frames before the line, as the operation R55 names (R77 to R80; TUNE by SEND
is decision D14; presenting a row by its frame is log 3). -/
def Obligations.CommandRowsStartTheirFrames : Prop :=
  ∀ (key : Byte) (s : State), s.seq = .idle →
    exec .statusQuery s = .next
      { s with curOp := some .exchange, curCmd := 0x41, curFrame := [0x02, 0x41, 0x03, 0x44], seq := .sent } ∧
    exec .displayQuery s = .next
      { s with curOp := some .exchange, curCmd := 0x4C, curFrame := [0x02, 0x4C, 0x03, 0x4F], seq := .sent } ∧
    exec (.keyPress key) s = .next
      { s with curOp := some .send, curCmd := 0x4B, curFrame := [0x02, 0x4B, key, 0x03, 0x4E + key], seq := .sent } ∧
    exec .tune s = .next
      { s with
        curOp := some .send
        curCmd := 0x54
        curFrame := [0x02, 0x54, 0x00, 0x00, 0x00, 0x00, 0x00, 0x03, 0x57]
        seq := .sent }

/-- DECODE in IDLE posts the validator's answer, one clause for each, and changes nothing else (R110, R118; decisions D9
and D28). -/
def Obligations.DecodePostsTheVerdict : Prop :=
  ∀ (chk : Byte) (frame : List Byte) (s : State), s.seq = .idle →
    (∀ p comp, decodeFrame frame chk = .ok p comp →
      exec (.decode chk frame) s = .next
        { s with curOp := some .decode, curCmd := chk, res := ⟨.ok, chk, comp, p⟩, seq := .validated }) ∧
    (∀ recvd comp, decodeFrame frame chk = .mismatch recvd comp →
      recvd = chk ∧
      exec (.decode chk frame) s = .next
        { s with curOp := some .decode, curCmd := chk, res := ⟨.checksumMismatch, chk, comp, []⟩, seq := .failed }) ∧
    (decodeFrame frame chk = .noStx →
      exec (.decode chk frame) s = .next
        { s with curOp := some .decode, curCmd := chk, res := ⟨.framingNoStx, 0, 0, []⟩, seq := .failed }) ∧
    (decodeFrame frame chk = .noEtx →
      exec (.decode chk frame) s = .next
        { s with curOp := some .decode, curCmd := chk, res := ⟨.framingNoEtx, 0, 0, []⟩, seq := .failed }) ∧
    (decodeFrame frame chk = .trailing →
      exec (.decode chk frame) s = .next
        { s with curOp := some .decode, curCmd := chk, res := ⟨.framingTrailing, 0, 0, []⟩, seq := .failed })

/-- An illegal request in IDLE posts REQUEST_REJECTED and changes nothing else; `cur_cmd` stays (R111, R129, decision D3;
that `cur_cmd` stays is log 11). -/
def Obligations.IllegalRequestIsRejected : Prop :=
  ∀ (op : BitVec 3) (rsvd : BitVec 5) (cmd : Byte) (bytes : List Byte) (s : State),
    wellFormed (.reservedOp op rsvd cmd bytes) = true → s.seq = .idle →
    exec (.reservedOp op rsvd cmd bytes) s = .next
      { s with curOp := none, res := ⟨.requestRejected, 0, 0, []⟩, seq := .failed }

/-- Every request presented outside IDLE is held and nothing else changes: it is neither lost nor run (R106, R115;
decision D13). -/
def Obligations.RequestOutsideIdleIsHeld : Prop :=
  ∀ (i : Instr) (r : Request) (s : State), requestOf i = some r → s.seq ≠ .idle →
    exec i s = .next { s with held := s.held ++ [r] }

/-- Which instructions are requests, and that each carries its op, command byte and bytes (R55, R66, R67; decision
D3). -/
def Obligations.RequestsCarryTheirOperands : Prop :=
  (∀ i : Instr, requestOf i = none ↔ i = .take ∨ ∃ cut, i = .reset cut) ∧
  ∀ (i : Instr) (r : Request), wellFormed i = true → requestOf i = some r →
    (∀ header bytes, encode i = .request header bytes →
      headerOp header = r.op ∧ headerRsvd header = r.rsvd ∧ headerCmd header = r.cmd ∧ bytes = r.bytes) ∧
    (∀ bytes, encode i = .frame bytes → r.rsvd = 0 ∧ (r.op = 1 ∨ r.op = 2) ∧ bytes = encodeFrame r.cmd r.bytes)

/-- TAKE with a result waiting delivers it with the resync bit, sets `res`, `cur_op` and `cur_cmd` back, and returns to
IDLE; nothing else changes (R113, R134). -/
def Obligations.TakeDeliversTheResult : Prop :=
  ∀ s : State, s.seq = .validated ∨ s.seq = .failed →
    exec .take s = .next
      { s with
        taken := s.taken ++ [{ result := s.res, resync := s.resyncNeeded }]
        res := ⟨.ok, 0, 0, []⟩
        curOp := none
        curCmd := 0
        seq := .idle }

/-- Outside VALIDATED and FAILED TAKE is not enabled (R113); that the model then stops with a fault is its own choice
(log 2). -/
def Obligations.TakeIsNotEnabledWithoutAResult : Prop :=
  ∀ s : State, s.seq ≠ .validated → s.seq ≠ .failed → exec .take s = .fault .takeNotEnabled

/-- RESET in any state gives every element of R19 its reset value, leaves `p` bytes of a frame being written on the line,
delivers nothing, and leaves configuration, histories, held requests and the environment alone (R143, R144, R34;
decisions D7, D11, D12). -/
def Obligations.ResetRestoresTheBlock : Prop :=
  ∀ (s : State) (p : Nat), p ≤ s.curFrame.length →
    exec (.reset p) s = .next
      { s with
        seq := .idle
        rx := .off
        acc := []
        curOp := none
        curCmd := 0
        curFrame := []
        res := ⟨.ok, 0, 0, []⟩
        resyncNeeded := false
        lineOut := if s.seq = .sent then s.lineOut ++ s.curFrame.take p else s.lineOut }

/-- The start state (R34 with decision D12; R7 to R9; the histories of 95_test_vectors.md S0; `taken`, `held` and
`agenda` empty are log 13). -/
def Obligations.StartStateValues : Prop :=
  State.reset =
    { seq := .idle, rx := .off, acc := [], curOp := none, curCmd := 0x00, curFrame := []
      res := ⟨.ok, 0x00, 0x00, []⟩, resyncNeeded := false
      config :=
        { maxFrame := some 4096, readTimeout := none, baudRate := 115200, dataBits := 8, stopBits := 1, parity := .none }
      lineOut := [], lineIn := [], taken := [], held := [], agenda := [] }

/-- Presenting a request of any kind never touches the receiver, the resync bit, the configuration, the histories, the
delivered results or the environment's coming events; and ENCODE, DECODE and an illegal request do not touch `cur_frame`
either (R107 to R111, R106). -/
def Obligations.PresentingARequestLeavesTheLineAlone : Prop :=
  ∀ (i : Instr) (r : Request) (s t : State), requestOf i = some r → exec i s = .next t →
    t.rx = s.rx ∧ t.acc = s.acc ∧ t.resyncNeeded = s.resyncNeeded ∧ t.config = s.config ∧ t.lineOut = s.lineOut ∧
    t.lineIn = s.lineIn ∧ t.taken = s.taken ∧ t.agenda = s.agenda ∧
    (r.rsvd ≠ 0 ∨ r.op ≠ 1 ∧ r.op ≠ 2 → t.curFrame = s.curFrame)

/-! ## The line -/

/-- A completed write puts the whole frame on the line in one step; for SEND it posts OK, otherwise it arms the receiver
(R81, R43, R86; decision D23). -/
def Obligations.CompletedWrite : Prop :=
  ∀ (s : State) (rest : List Event), s.agenda = .txDone :: rest → s.seq = .sent →
    (s.curOp = some .send →
      step s = .next
        { s with
          agenda := rest
          lineOut := s.lineOut ++ s.curFrame
          curFrame := []
          res := ⟨.ok, 0, 0, []⟩
          seq := .validated }) ∧
    (s.curOp ≠ some .send →
      step s = .next
        { s with
          agenda := rest
          lineOut := s.lineOut ++ s.curFrame
          curFrame := []
          seq := .awaitingFrame
          rx := .expectStx
          acc := [] })

/-- A failed write leaves any prefix of the frame on the line, marks it, and posts IO_ERROR (R82, R44; decisions D7 and
D10). -/
def Obligations.FailedWrite : Prop :=
  ∀ (s : State) (rest : List Event) (p : Nat), s.agenda = .txFail p :: rest → s.seq = .sent → p ≤ s.curFrame.length →
    step s = .next
      { s with
        agenda := rest
        lineOut := s.lineOut ++ s.curFrame.take p
        curFrame := []
        resyncNeeded := true
        res := ⟨.ioError, 0, 0, []⟩
        seq := .failed }

/-- The first byte of a response must be STX: it opens the frame, and any other byte fails at once, marking the line
(R88, R94; decision D10). -/
def Obligations.FirstByteMustBeStx : Prop :=
  ∀ (s : State) (rest : List Event) (b : Byte), s.agenda = .answer (.byte b) :: rest → s.rx = .expectStx →
    (b = STX → step s = .next { s with agenda := rest, lineIn := s.lineIn ++ [b], acc := [STX], rx := .body }) ∧
    (b ≠ STX →
      step s = .next
        { s with
          agenda := rest
          lineIn := s.lineIn ++ [b]
          rx := .off
          acc := []
          resyncNeeded := true
          res := ⟨.framingNoStx, 0, 0, []⟩
          seq := .failed })

/-- A body byte: beyond MAX_FRAME it fails whatever its value, otherwise it is appended, and ETX ends the body (R89, R136
item 5; decisions D5 and D10). -/
def Obligations.BodyByteUpToTheBound : Prop :=
  ∀ (s : State) (rest : List Event) (b : Byte), s.agenda = .answer (.byte b) :: rest → s.rx = .body →
    (∀ n, s.config.maxFrame = some n → n ≤ s.acc.length →
      step s = .next
        { s with
          agenda := rest
          lineIn := s.lineIn ++ [b]
          rx := .off
          acc := []
          resyncNeeded := true
          res := ⟨.framingTooLong, 0, 0, []⟩
          seq := .failed }) ∧
    ((∀ n, s.config.maxFrame = some n → s.acc.length < n) →
      step s = .next
        { s with
          agenda := rest
          lineIn := s.lineIn ++ [b]
          acc := s.acc ++ [b]
          rx := if b = ETX then .expectChk else .body })

/-- The byte after ETX is read as the checksum whatever its value, and the validator's answer is posted: OK with the
payload, or CHECKSUM_MISMATCH with both values; `resync_needed` stays (R90, R91). The accumulator holds a frame there
(R30 item 5). -/
def Obligations.ChecksumByteIsValidated : Prop :=
  ∀ (s : State) (rest : List Event) (b : Byte) (p : List Byte),
    s.agenda = .answer (.byte b) :: rest → s.rx = .expectChk → s.acc = STX :: (p ++ [ETX]) → ETX ∉ p →
    (b = checksum (p ++ [ETX]) →
      step s = .next
        { s with
          agenda := rest
          lineIn := s.lineIn ++ [b]
          rx := .off
          acc := []
          res := ⟨.ok, b, checksum (p ++ [ETX]), p⟩
          seq := .validated }) ∧
    (b ≠ checksum (p ++ [ETX]) →
      step s = .next
        { s with
          agenda := rest
          lineIn := s.lineIn ++ [b]
          rx := .off
          acc := []
          res := ⟨.checksumMismatch, b, checksum (p ++ [ETX]), []⟩
          seq := .failed })

/-- A read that times out, where READ_TIMEOUT is set, or fails, in any receiver state, posts TIMEOUT or IO_ERROR, marks
the line, discards the accumulator and consumes no byte (R92, R93, R132; decisions D6 and D10). -/
def Obligations.TimeoutAndReadFailure : Prop :=
  ∀ (s : State) (rest : List Event), s.rx ≠ .off →
    (s.agenda = .answer .timeout :: rest → s.config.readTimeout ≠ none →
      step s = .next
        { s with
          agenda := rest
          rx := .off
          acc := []
          resyncNeeded := true
          res := ⟨.timeout, 0, 0, []⟩
          seq := .failed }) ∧
    (s.agenda = .answer .ioFail :: rest →
      step s = .next
        { s with
          agenda := rest
          rx := .off
          acc := []
          resyncNeeded := true
          res := ⟨.ioError, 0, 0, []⟩
          seq := .failed })

/-- No line step is enabled elsewhere: no read is answered while the receiver is off, no timeout comes while READ_TIMEOUT
is none, no write ends outside SENT, and no held request is accepted outside IDLE (R87, R92, R81, R82, R106, R135); that
the model then stops with a fault is its own choice (log 2). -/
def Obligations.LineStepsNotEnabledElsewhere : Prop :=
  ∀ (s : State) (rest : List Event),
    (∀ a, s.agenda = .answer a :: rest → s.rx = .off → step s = .fault .readNotEnabled) ∧
    (s.agenda = .answer .timeout :: rest → s.config.readTimeout = none → step s = .fault .readNotEnabled) ∧
    (s.agenda = .txDone :: rest → s.seq ≠ .sent → step s = .fault .writeNotEnabled) ∧
    (∀ p, s.agenda = .txFail p :: rest → s.seq ≠ .sent → step s = .fault .writeNotEnabled) ∧
    (∀ n, s.agenda = .acceptHeld n :: rest → s.seq ≠ .idle → step s = .fault .acceptNotEnabled)

/-! ## Invariants -/

/-- The start state meets the invariants and the capacities. -/
def Obligations.StartStateMeetsTheInvariants : Prop :=
  State.reset.Inv ∧ State.reset.Bounded

/-- Every step keeps the invariants of R30 (derived there), from every state that meets them. -/
def Obligations.EveryStepKeepsTheInvariants : Prop :=
  ∀ s t : State, s.Inv → step s = .next t → t.Inv

/-- Every step keeps the capacities of R36 (derived there), from every state that meets them and the invariants. -/
def Obligations.EveryStepKeepsTheCapacities : Prop :=
  ∀ s t : State, s.Inv → s.Bounded → step s = .next t → t.Bounded

/-- In a good state the framer never hands DECODE a frame that fails checks 1, 2 or 2a, so the outcome R91 calls
unreachable is unreachable (R95 item 1, derived there; the fault is log 9). -/
def Obligations.FramerNeverHandsOverABadFrame : Prop :=
  ∀ s : State, s.Inv → step s ≠ .fault .framerUnreachable

/-- The frame waiting for its write is an encoding of the command byte in progress, and every step keeps that (R27,
R35). -/
def Obligations.WaitingFrameIsEncoded : Prop :=
  ∀ s t : State, s.Inv → (s.seq = .sent → ∃ d, s.curFrame = encodeFrame s.curCmd d) → step s = .next t →
    (t.seq = .sent → ∃ d, t.curFrame = encodeFrame t.curCmd d)

/-- No step writes the configuration (R28; decision D18). -/
def Obligations.ConfigurationNeverChanges : Prop :=
  ∀ s t : State, step s = .next t → t.config = s.config

/-- The histories only grow: `line_out` only when a write completes, fails or is cut off by reset, by bytes from the front
of the frame being written; `line_in` only by the byte that a read is answered with. Nothing is taken back (R29). -/
def Obligations.HistoriesOnlyGrow : Prop :=
  ∀ s t : State, step s = .next t →
    ∃ out inn, t.lineOut = s.lineOut ++ out ∧ t.lineIn = s.lineIn ++ inn ∧
      (out ≠ [] →
        s.seq = .sent ∧ (∃ more, s.curFrame = out ++ more) ∧
        ∃ rest, s.agenda = .txDone :: rest ∨ (∃ p, s.agenda = .txFail p :: rest) ∨
          ∃ cut, s.agenda = .host (.resetInput cut) :: rest) ∧
      (inn ≠ [] → s.rx ≠ .off ∧ ∃ b rest, s.agenda = .answer (.byte b) :: rest ∧ inn = [b])

/-- `seq` changes only along the rows of R114, in every state that meets the invariants. -/
def Obligations.SequencerMovesOnlyAsTabulated : Prop :=
  ∀ s t : State, s.Inv → step s = .next t → t.seq ≠ s.seq →
    ∃ e rest, s.agenda = e :: rest ∧ SeqMove s e t.seq

/-- The receiver is armed only by the completed write of an EXCHANGE, with an empty accumulator, and disarmed by every
step that posts a result while it is on, and by reset (R86). -/
def Obligations.ReceiverArmedOnlyByAnExchangeWrite : Prop :=
  ∀ s t : State, s.Inv → step s = .next t →
    (s.rx = .off → t.rx ≠ .off →
      (∃ rest, s.agenda = .txDone :: rest) ∧ s.curOp = some .exchange ∧ t.rx = .expectStx ∧ t.acc = []) ∧
    (s.rx ≠ .off → t.seq = .validated ∨ t.seq = .failed → t.rx = .off ∧ t.acc = []) ∧
    (∀ cut rest, s.agenda = .host (.resetInput cut) :: rest → t.rx = .off ∧ t.acc = [])

/-- `resync_needed` is set by exactly the posts R133 lists, from a write or the framer, and cleared by reset alone
(decision D10). -/
def Obligations.ResyncIsMarkedExactlyByLineErrors : Prop :=
  ∀ s t : State, s.Inv → step s = .next t →
    (∀ cut rest, s.agenda = .host (.resetInput cut) :: rest → t.resyncNeeded = false) ∧
    ((∀ cut rest, s.agenda ≠ .host (.resetInput cut) :: rest) →
      (t.resyncNeeded = true ↔
        s.resyncNeeded = true ∨
          s.busy = true ∧ t.seq = .failed ∧
            (t.res.kind = .timeout ∨ t.res.kind = .ioError ∨ t.res.kind = .framingNoStx ∨
              t.res.kind = .framingTooLong)))

/-- A posted result and the resync bit beside it are not changed until TAKE or RESET, so what TAKE delivers is what was
posted (R112, R113, R115 item 2; derived in R113). -/
def Obligations.PostedResultIsNotOverwritten : Prop :=
  ∀ s t : State, s.Inv → s.seq = .validated ∨ s.seq = .failed → step s = .next t →
    (t.seq = s.seq ∧ t.res = s.res ∧ t.resyncNeeded = s.resyncNeeded ∧ t.taken = s.taken) ∨
    (t.seq = .idle ∧ ∃ rest, (s.agenda = .host .takeStep :: rest ∧
        t.taken = s.taken ++ [{ result := s.res, resync := s.resyncNeeded }]) ∨
      ∃ cut, s.agenda = .host (.resetInput cut) :: rest ∧ t.taken = s.taken)

/-- No delivered error carries a payload, and no result is ever UNKNOWN_KEY: every step keeps both (R132, R104, R141, R130,
R119; decision D15). -/
def Obligations.DeliveredErrorsCarryNoPayload : Prop :=
  ∀ s t : State, s.Inv → step s = .next t →
    (s.res.kind ≠ .unknownKey ∧
      ∀ d ∈ s.taken, d.result.kind ≠ .unknownKey ∧ (d.result.kind ≠ .ok → d.result.bytes = [])) →
    (t.res.kind ≠ .unknownKey ∧
      ∀ d ∈ t.taken, d.result.kind ≠ .unknownKey ∧ (d.result.kind ≠ .ok → d.result.bytes = []))

/-- While the operation in progress is a SEND, no step consumes a byte from the line (R117). -/
def Obligations.SendNeverReadsTheLine : Prop :=
  ∀ s t : State, s.Inv → s.curOp = some .send → step s = .next t → t.lineIn = s.lineIn

/-! ## Whole operations -/

/-- The framer run step by step agrees with RECV over every script of answers that the configuration admits: the same
result, the same number of answers used, the same bytes consumed; and it is still waiting where RECV is (R96, derived
there; R85). -/
def Obligations.FramerAgreesWithRecv : Prop :=
  ∀ (s : State) (script : List ReadAnswer) (rest : List Event),
    s.seq = .awaitingFrame → s.rx = .expectStx → s.acc = [] →
    (ReadAnswer.timeout ∈ script → s.config.readTimeout ≠ none) →
    s.agenda = script.map .answer ++ rest →
    (∀ r k, recv s.config.maxFrame script = some (r, k) →
      run k s = .next
        { s with
          seq := if r.kind = .ok then .validated else .failed
          rx := .off
          acc := []
          res := r
          resyncNeeded := s.resyncNeeded || r.kind.marksLine
          lineIn := s.lineIn ++ answerBytes (script.take k)
          agenda := (script.drop k).map .answer ++ rest }) ∧
    (recv s.config.maxFrame script = none →
      ∃ t, run script.length s = .next t ∧ t.seq = .awaitingFrame ∧ t.rx ≠ .off ∧ t.agenda = rest ∧
        t.lineIn = s.lineIn ++ answerBytes script ∧ t.resyncNeeded = s.resyncNeeded)

/-- An EXCHANGE presented in IDLE, run to its result, agrees with EXCH: the write ends as the line-out environment
answers, and then the framer reads the script (R120, derived there; R109, R48). -/
def Obligations.ExchangeAgreesWithExch : Prop :=
  ∀ (s : State) (cmd : Byte) (data : List Byte) (script : List ReadAnswer) (rest : List Event),
    s.seq = .idle → s.rx = .off → s.acc = [] → s.curFrame = [] → data.length < 65536 →
    (ReadAnswer.timeout ∈ script → s.config.readTimeout ≠ none) →
    (∀ o, exchangeOutcome s.config.maxFrame cmd data .done script = some o →
      s.agenda = .host (encode (.exchange cmd data)) :: .txDone :: (script.map .answer ++ rest) →
      run (o.used + 2) s = .next
        { s with
          seq := if o.result.kind = .ok then .validated else .failed
          curOp := some .exchange
          curCmd := cmd
          res := o.result
          resyncNeeded := s.resyncNeeded || o.result.kind.marksLine
          lineOut := s.lineOut ++ o.sent
          lineIn := s.lineIn ++ answerBytes (script.take o.used)
          agenda := (script.drop o.used).map .answer ++ rest }) ∧
    (∀ p o, p ≤ data.length + 4 → exchangeOutcome s.config.maxFrame cmd data (.fail p) script = some o →
      s.agenda = .host (encode (.exchange cmd data)) :: .txFail p :: (script.map .answer ++ rest) →
      run 2 s = .next
        { s with
          seq := .failed
          curOp := some .exchange
          curCmd := cmd
          res := o.result
          resyncNeeded := true
          lineOut := s.lineOut ++ o.sent
          agenda := script.map .answer ++ rest })

/-- A SEND presented in IDLE ends, when its write ends, with OK and the whole frame on the line, or with IO_ERROR and a
prefix of it; the receiver is never armed and no byte is read (R108, R81, R82; SENDF is derived in R120; the prefix,
carried by the event, is decision D7 and log 6, the resync bit D10, VALIDATED after a SEND D23). -/
def Obligations.SendEndsWithItsWrite : Prop :=
  ∀ (s : State) (cmd : Byte) (data : List Byte) (rest : List Event),
    s.seq = .idle → s.curFrame = [] → data.length < 65536 →
    (s.agenda = .host (encode (.send cmd data)) :: .txDone :: rest →
      run 2 s = .next
        { s with
          seq := .validated
          curOp := some .send
          curCmd := cmd
          res := (sendOutcome cmd data .done).result
          lineOut := s.lineOut ++ (sendOutcome cmd data .done).sent
          agenda := rest }) ∧
    (∀ p, p ≤ data.length + 4 → s.agenda = .host (encode (.send cmd data)) :: .txFail p :: rest →
      run 2 s = .next
        { s with
          seq := .failed
          curOp := some .send
          curCmd := cmd
          res := (sendOutcome cmd data (.fail p)).result
          resyncNeeded := true
          lineOut := s.lineOut ++ (sendOutcome cmd data (.fail p)).sent
          agenda := rest })

/-- What a receive uses, by its outcome: `m + 3` bytes for a payload of `m` bytes, which never holds ETX; 1 byte when the
first is not STX; `n + 1` when the frame is longer than `n` (R95 items 2 to 4, derived there). -/
def Obligations.ReceiveUsesAsManyBytesAsItsOutcomeSays : Prop :=
  ∀ (maxFrame : Option Nat) (script : List ReadAnswer) (r : Result) (k : Nat),
    (∀ n ∈ maxFrame, 2 ≤ n) → recv maxFrame script = some (r, k) →
    (r.kind = .ok → k = r.bytes.length + 3 ∧ ETX ∉ r.bytes) ∧
    (r.kind = .framingNoStx → k = 1) ∧
    (r.kind = .framingTooLong → ∃ n, maxFrame = some n ∧ k = n + 1) ∧
    (r.kind = .timeout ∨ r.kind = .ioError → (answerBytes (script.take k)).length + 1 = k)

/-- No outcome depends on earlier operations. Two good states in IDLE, with the same configuration, requests and
environment, differ at most in the resync bit and the histories; and two states that differ only there take steps that
keep them so, put the same bytes on the line, consume the same bytes, and deliver the same result records; and one stops
exactly where the other does (R31). -/
def Obligations.OutcomesDoNotDependOnTheHistory : Prop :=
  (∀ s t : State, s.Inv → t.Inv → s.seq = .idle → t.seq = .idle → s.config = t.config → s.held = t.held →
    s.agenda = t.agenda → s.Similar t) ∧
  ∀ s t : State, s.Similar t →
    (∀ s', step s = .next s' →
      ∃ t' out inn taken, step t = .next t' ∧ s'.Similar t' ∧
        s'.lineOut = s.lineOut ++ out ∧ t'.lineOut = t.lineOut ++ out ∧
        s'.lineIn = s.lineIn ++ inn ∧ t'.lineIn = t.lineIn ++ inn ∧
        s'.taken.map Delivery.result = s.taken.map Delivery.result ++ taken ∧
        t'.taken.map Delivery.result = t.taken.map Delivery.result ++ taken) ∧
    (∀ f, step s = .fault f → step t = .fault f) ∧
    (∀ r, step s = .refused r → step t = .refused r)

/-! ## Words the host reads -/

/-- The fields of the STATUS word (R70, R22, R23; decision D4). -/
def Obligations.StatusWordFields : Prop :=
  ∀ s : State,
    s.statusWord.extractLsb' 0 3 = s.seq.code ∧
    s.statusWord.extractLsb' 3 2 = s.rx.code ∧
    (s.statusWord.getLsbD 5 = s.resyncNeeded) ∧
    s.statusWord.extractLsb' 6 26 = 0

/-- The fields of RES0 and the value of RES1 (R69, R121; decision D4; RES1 in 32 bits is log 12). -/
def Obligations.ResultWordFields : Prop :=
  ∀ d : Delivery,
    d.res0.extractLsb' 0 4 = d.result.kind.code ∧
    d.res0.extractLsb' 4 4 = 0 ∧
    d.res0.extractLsb' 8 8 = d.result.received ∧
    d.res0.extractLsb' 16 8 = d.result.computed ∧
    (d.res0.getLsbD 24 = d.resync) ∧
    d.res0.extractLsb' 25 7 = 0 ∧
    (d.result.bytes.length < 2 ^ 32 → d.res1.toNat = d.result.bytes.length)

/-! ## Pseudo-operations -/

/-- The pseudo-operations expand as R72 says; a key that KEY_TABLE does not hold gives UnknownKeyError and no host step,
so nothing is written (R72, R130; decisions D14, D15 and D16; KEY_TABLE as an argument is log 15). -/
def Obligations.PseudoOperationsExpand : Prop :=
  ∀ keyTable : SymbolicKey → Option Byte,
    Pseudo.expand keyTable .getStatus = .ok [.exchange 0x41 [], .take] ∧
    Pseudo.expand keyTable .getDisplay = .ok [.exchange 0x4C [], .take] ∧
    Pseudo.expand keyTable .sendTune = .ok [.send 0x54 [0, 0, 0, 0, 0], .take] ∧
    (∀ key k, keyTable key = some k → Pseudo.expand keyTable (.sendKey key) = .ok [.send 0x4B [k], .take]) ∧
    (∀ key, keyTable key = none → Pseudo.expand keyTable (.sendKey key) = .error .unknownKey) ∧
    (KeyTableAgrees keyTable →
      Pseudo.expand keyTable (.sendKey "NUM_5") = .ok [.send 0x4B [0x1C], .take] ∧
      Pseudo.expand keyTable (.sendKey "ARROW_DOWN") = .ok [.send 0x4B [0x09], .take])

/-- What the host reports of a delivered result: GET_STATUS and GET_DISPLAY an OK payload in its wrapper (R72), every
operation an error with its kind and its two bytes (R72, R141, R128), and no payload then. That SEND_KEY and SEND_TUNE
report an OK result as `sent` is the model's choice (log 15). -/
def Obligations.HostReportsTheDeliveredResult : Prop :=
  ∀ (p : Pseudo) (d : Delivery),
    (d.result.kind = .ok →
      (p = .getStatus → p.report d = .statusResponse d.result.bytes) ∧
      (p = .getDisplay → p.report d = .displayResponse d.result.bytes) ∧
      (p = .sendTune ∨ (∃ key, p = .sendKey key) → p.report d = .sent)) ∧
    (d.result.kind ≠ .ok → p.report d = .error d.result.kind d.result.received d.result.computed)

/-! ## Endless waits -/

/-- Both endless runs of R97 are runs of the model, and the hang of R83 too: in every state with nothing to come a silent
environment leaves it waiting for ever; and without MAX_FRAME every endless stream of bytes that starts with STX and holds
no ETX keeps the framer in RX_BODY for ever, every byte consumed and appended (the silent step is log 16, the endless
environment log 20). -/
def Obligations.EndlessWaitsAreRuns : Prop :=
  (∀ s : State, s.agenda = [] → Follows silence fun _ => s) ∧
  ∀ (s : State) (bytes : Nat → Byte),
    s.agenda = [] → s.rx = .expectStx → s.config.maxFrame = none → bytes 0 = STX → (∀ k, bytes k ≠ ETX) →
    Follows (byteStream bytes) fun k =>
      if k = 0 then s
      else { s with rx := .body, acc := streamed bytes k, lineIn := s.lineIn ++ streamed bytes k }

/-- Only reset ends either wait of R97. Without MAX_FRAME and READ_TIMEOUT, in every endless run from a reading state
whose environment neither resets the block, nor answers a read but with bytes that are not ETX in RX_BODY, the block is
for ever in AWAITING_FRAME with the receiver where it was; and a reset in any of its states goes to IDLE with the receiver
off (log 20). -/
def Obligations.OnlyResetEndsAnEndlessWait : Prop :=
  ∀ (env : Environment) (states : Nat → State),
    Follows env states → (states 0).agenda = [] → (states 0).seq = .awaitingFrame → (states 0).rx ≠ .off →
    (states 0).config.maxFrame = none → (states 0).config.readTimeout = none →
    (∀ k, NeverEndsTheFrame (states 0).rx (env k)) →
    ∀ k,
      (states k).seq = .awaitingFrame ∧ (states k).rx = (states 0).rx ∧
      ∀ cut, ∃ t, environmentStep (some (.host (.resetInput cut))) (states k) = .next t ∧ t.seq = .idle ∧ t.rx = .off
end

