-- ==== Sys2Proof/Laws/State.lean ====
section
/-! SUPPORT. What each shared operation does to each field of State, one lemma a field, so that no proof unfolds a record
update. -/

namespace Sys2Proof.Machine

variable (s : State)

/-! ## post -/

@[simp] theorem post_seq (kind : Kind) (received computed : Byte) (bytes : List Byte) :
    (post kind received computed bytes s).seq = if kind = .ok then .validated else .failed := rfl
@[simp] theorem post_rx (kind : Kind) (received computed : Byte) (bytes : List Byte) :
    (post kind received computed bytes s).rx = s.rx := rfl
@[simp] theorem post_acc (kind : Kind) (received computed : Byte) (bytes : List Byte) :
    (post kind received computed bytes s).acc = s.acc := rfl
@[simp] theorem post_curOp (kind : Kind) (received computed : Byte) (bytes : List Byte) :
    (post kind received computed bytes s).curOp = s.curOp := rfl
@[simp] theorem post_curCmd (kind : Kind) (received computed : Byte) (bytes : List Byte) :
    (post kind received computed bytes s).curCmd = s.curCmd := rfl
@[simp] theorem post_curFrame (kind : Kind) (received computed : Byte) (bytes : List Byte) :
    (post kind received computed bytes s).curFrame = s.curFrame := rfl
@[simp] theorem post_res (kind : Kind) (received computed : Byte) (bytes : List Byte) :
    (post kind received computed bytes s).res = { kind := kind, received := received, computed := computed, bytes := bytes } := rfl
@[simp] theorem post_resyncNeeded (kind : Kind) (received computed : Byte) (bytes : List Byte) :
    (post kind received computed bytes s).resyncNeeded = s.resyncNeeded := rfl
@[simp] theorem post_config (kind : Kind) (received computed : Byte) (bytes : List Byte) :
    (post kind received computed bytes s).config = s.config := rfl
@[simp] theorem post_lineOut (kind : Kind) (received computed : Byte) (bytes : List Byte) :
    (post kind received computed bytes s).lineOut = s.lineOut := rfl
@[simp] theorem post_lineIn (kind : Kind) (received computed : Byte) (bytes : List Byte) :
    (post kind received computed bytes s).lineIn = s.lineIn := rfl
@[simp] theorem post_taken (kind : Kind) (received computed : Byte) (bytes : List Byte) :
    (post kind received computed bytes s).taken = s.taken := rfl
@[simp] theorem post_held (kind : Kind) (received computed : Byte) (bytes : List Byte) :
    (post kind received computed bytes s).held = s.held := rfl
@[simp] theorem post_agenda (kind : Kind) (received computed : Byte) (bytes : List Byte) :
    (post kind received computed bytes s).agenda = s.agenda := rfl

/-! ## raiseLineError -/

@[simp] theorem raiseLineError_seq (kind : Kind) :
    (raiseLineError kind s).seq = if kind = .ok then .validated else .failed := rfl
@[simp] theorem raiseLineError_rx (kind : Kind) : (raiseLineError kind s).rx = s.rx := rfl
@[simp] theorem raiseLineError_acc (kind : Kind) : (raiseLineError kind s).acc = s.acc := rfl
@[simp] theorem raiseLineError_curOp (kind : Kind) : (raiseLineError kind s).curOp = s.curOp := rfl
@[simp] theorem raiseLineError_curCmd (kind : Kind) : (raiseLineError kind s).curCmd = s.curCmd := rfl
@[simp] theorem raiseLineError_curFrame (kind : Kind) : (raiseLineError kind s).curFrame = s.curFrame := rfl
@[simp] theorem raiseLineError_res (kind : Kind) :
    (raiseLineError kind s).res = { kind := kind, received := 0, computed := 0, bytes := [] } := rfl
@[simp] theorem raiseLineError_resyncNeeded (kind : Kind) : (raiseLineError kind s).resyncNeeded = true := rfl
@[simp] theorem raiseLineError_config (kind : Kind) : (raiseLineError kind s).config = s.config := rfl
@[simp] theorem raiseLineError_lineOut (kind : Kind) : (raiseLineError kind s).lineOut = s.lineOut := rfl
@[simp] theorem raiseLineError_lineIn (kind : Kind) : (raiseLineError kind s).lineIn = s.lineIn := rfl
@[simp] theorem raiseLineError_taken (kind : Kind) : (raiseLineError kind s).taken = s.taken := rfl
@[simp] theorem raiseLineError_held (kind : Kind) : (raiseLineError kind s).held = s.held := rfl
@[simp] theorem raiseLineError_agenda (kind : Kind) : (raiseLineError kind s).agenda = s.agenda := rfl

/-! ## deliver -/

@[simp] theorem deliver_seq : (deliver s).seq = s.seq := rfl
@[simp] theorem deliver_rx : (deliver s).rx = s.rx := rfl
@[simp] theorem deliver_acc : (deliver s).acc = s.acc := rfl
@[simp] theorem deliver_curOp : (deliver s).curOp = s.curOp := rfl
@[simp] theorem deliver_curCmd : (deliver s).curCmd = s.curCmd := rfl
@[simp] theorem deliver_curFrame : (deliver s).curFrame = s.curFrame := rfl
@[simp] theorem deliver_res : (deliver s).res = s.res := rfl
@[simp] theorem deliver_resyncNeeded : (deliver s).resyncNeeded = s.resyncNeeded := rfl
@[simp] theorem deliver_config : (deliver s).config = s.config := rfl
@[simp] theorem deliver_lineOut : (deliver s).lineOut = s.lineOut := rfl
@[simp] theorem deliver_lineIn : (deliver s).lineIn = s.lineIn := rfl
@[simp] theorem deliver_taken : (deliver s).taken = s.taken ++ [{ result := s.res, resync := s.resyncNeeded }] := rfl
@[simp] theorem deliver_held : (deliver s).held = s.held := rfl
@[simp] theorem deliver_agenda : (deliver s).agenda = s.agenda := rfl

/-! ## retire -/

@[simp] theorem retire_seq : (retire s).seq = .idle := rfl
@[simp] theorem retire_rx : (retire s).rx = s.rx := rfl
@[simp] theorem retire_acc : (retire s).acc = s.acc := rfl
@[simp] theorem retire_curOp : (retire s).curOp = none := rfl
@[simp] theorem retire_curCmd : (retire s).curCmd = 0 := rfl
@[simp] theorem retire_curFrame : (retire s).curFrame = s.curFrame := rfl
@[simp] theorem retire_res : (retire s).res = Result.initial := rfl
@[simp] theorem retire_resyncNeeded : (retire s).resyncNeeded = s.resyncNeeded := rfl
@[simp] theorem retire_config : (retire s).config = s.config := rfl
@[simp] theorem retire_lineOut : (retire s).lineOut = s.lineOut := rfl
@[simp] theorem retire_lineIn : (retire s).lineIn = s.lineIn := rfl
@[simp] theorem retire_taken : (retire s).taken = s.taken := rfl
@[simp] theorem retire_held : (retire s).held = s.held := rfl
@[simp] theorem retire_agenda : (retire s).agenda = s.agenda := rfl

/-! ## hold -/

@[simp] theorem hold_seq (r : Request) : (hold r s).seq = s.seq := rfl
@[simp] theorem hold_rx (r : Request) : (hold r s).rx = s.rx := rfl
@[simp] theorem hold_acc (r : Request) : (hold r s).acc = s.acc := rfl
@[simp] theorem hold_curOp (r : Request) : (hold r s).curOp = s.curOp := rfl
@[simp] theorem hold_curCmd (r : Request) : (hold r s).curCmd = s.curCmd := rfl
@[simp] theorem hold_curFrame (r : Request) : (hold r s).curFrame = s.curFrame := rfl
@[simp] theorem hold_res (r : Request) : (hold r s).res = s.res := rfl
@[simp] theorem hold_resyncNeeded (r : Request) : (hold r s).resyncNeeded = s.resyncNeeded := rfl
@[simp] theorem hold_config (r : Request) : (hold r s).config = s.config := rfl
@[simp] theorem hold_lineOut (r : Request) : (hold r s).lineOut = s.lineOut := rfl
@[simp] theorem hold_lineIn (r : Request) : (hold r s).lineIn = s.lineIn := rfl
@[simp] theorem hold_taken (r : Request) : (hold r s).taken = s.taken := rfl
@[simp] theorem hold_held (r : Request) : (hold r s).held = s.held ++ [r] := rfl
@[simp] theorem hold_agenda (r : Request) : (hold r s).agenda = s.agenda := rfl

/-! ## beginOp -/

@[simp] theorem beginOp_seq (op : HostOp) (cmd : Byte) : (beginOp op cmd s).seq = s.seq := rfl
@[simp] theorem beginOp_rx (op : HostOp) (cmd : Byte) : (beginOp op cmd s).rx = s.rx := rfl
@[simp] theorem beginOp_acc (op : HostOp) (cmd : Byte) : (beginOp op cmd s).acc = s.acc := rfl
@[simp] theorem beginOp_curOp (op : HostOp) (cmd : Byte) : (beginOp op cmd s).curOp = some op := rfl
@[simp] theorem beginOp_curCmd (op : HostOp) (cmd : Byte) : (beginOp op cmd s).curCmd = cmd := rfl
@[simp] theorem beginOp_curFrame (op : HostOp) (cmd : Byte) : (beginOp op cmd s).curFrame = s.curFrame := rfl
@[simp] theorem beginOp_res (op : HostOp) (cmd : Byte) : (beginOp op cmd s).res = s.res := rfl
@[simp] theorem beginOp_resyncNeeded (op : HostOp) (cmd : Byte) :
    (beginOp op cmd s).resyncNeeded = s.resyncNeeded := rfl
@[simp] theorem beginOp_config (op : HostOp) (cmd : Byte) : (beginOp op cmd s).config = s.config := rfl
@[simp] theorem beginOp_lineOut (op : HostOp) (cmd : Byte) : (beginOp op cmd s).lineOut = s.lineOut := rfl
@[simp] theorem beginOp_lineIn (op : HostOp) (cmd : Byte) : (beginOp op cmd s).lineIn = s.lineIn := rfl
@[simp] theorem beginOp_taken (op : HostOp) (cmd : Byte) : (beginOp op cmd s).taken = s.taken := rfl
@[simp] theorem beginOp_held (op : HostOp) (cmd : Byte) : (beginOp op cmd s).held = s.held := rfl
@[simp] theorem beginOp_agenda (op : HostOp) (cmd : Byte) : (beginOp op cmd s).agenda = s.agenda := rfl

/-! ## startWrite -/

@[simp] theorem startWrite_seq (op : HostOp) (cmd : Byte) (data : List Byte) :
    (startWrite op cmd data s).seq = .sent := rfl
@[simp] theorem startWrite_rx (op : HostOp) (cmd : Byte) (data : List Byte) :
    (startWrite op cmd data s).rx = s.rx := rfl
@[simp] theorem startWrite_acc (op : HostOp) (cmd : Byte) (data : List Byte) :
    (startWrite op cmd data s).acc = s.acc := rfl
@[simp] theorem startWrite_curOp (op : HostOp) (cmd : Byte) (data : List Byte) :
    (startWrite op cmd data s).curOp = some op := rfl
@[simp] theorem startWrite_curCmd (op : HostOp) (cmd : Byte) (data : List Byte) :
    (startWrite op cmd data s).curCmd = cmd := rfl
@[simp] theorem startWrite_curFrame (op : HostOp) (cmd : Byte) (data : List Byte) :
    (startWrite op cmd data s).curFrame = encodeFrame cmd data := rfl
@[simp] theorem startWrite_res (op : HostOp) (cmd : Byte) (data : List Byte) :
    (startWrite op cmd data s).res = s.res := rfl
@[simp] theorem startWrite_resyncNeeded (op : HostOp) (cmd : Byte) (data : List Byte) :
    (startWrite op cmd data s).resyncNeeded = s.resyncNeeded := rfl
@[simp] theorem startWrite_config (op : HostOp) (cmd : Byte) (data : List Byte) :
    (startWrite op cmd data s).config = s.config := rfl
@[simp] theorem startWrite_lineOut (op : HostOp) (cmd : Byte) (data : List Byte) :
    (startWrite op cmd data s).lineOut = s.lineOut := rfl
@[simp] theorem startWrite_lineIn (op : HostOp) (cmd : Byte) (data : List Byte) :
    (startWrite op cmd data s).lineIn = s.lineIn := rfl
@[simp] theorem startWrite_taken (op : HostOp) (cmd : Byte) (data : List Byte) :
    (startWrite op cmd data s).taken = s.taken := rfl
@[simp] theorem startWrite_held (op : HostOp) (cmd : Byte) (data : List Byte) :
    (startWrite op cmd data s).held = s.held := rfl
@[simp] theorem startWrite_agenda (op : HostOp) (cmd : Byte) (data : List Byte) :
    (startWrite op cmd data s).agenda = s.agenda := rfl

/-! ## reject -/

@[simp] theorem reject_seq : (reject s).seq = .failed := rfl
@[simp] theorem reject_rx : (reject s).rx = s.rx := rfl
@[simp] theorem reject_acc : (reject s).acc = s.acc := rfl
@[simp] theorem reject_curOp : (reject s).curOp = none := rfl
@[simp] theorem reject_curCmd : (reject s).curCmd = s.curCmd := rfl
@[simp] theorem reject_curFrame : (reject s).curFrame = s.curFrame := rfl
@[simp] theorem reject_res :
    (reject s).res = { kind := .requestRejected, received := 0, computed := 0, bytes := [] } := rfl
@[simp] theorem reject_resyncNeeded : (reject s).resyncNeeded = s.resyncNeeded := rfl
@[simp] theorem reject_config : (reject s).config = s.config := rfl
@[simp] theorem reject_lineOut : (reject s).lineOut = s.lineOut := rfl
@[simp] theorem reject_lineIn : (reject s).lineIn = s.lineIn := rfl
@[simp] theorem reject_taken : (reject s).taken = s.taken := rfl
@[simp] theorem reject_held : (reject s).held = s.held := rfl
@[simp] theorem reject_agenda : (reject s).agenda = s.agenda := rfl

/-! ## lineWrite -/

@[simp] theorem lineWrite_seq (bytes : List Byte) : (lineWrite bytes s).seq = s.seq := rfl
@[simp] theorem lineWrite_rx (bytes : List Byte) : (lineWrite bytes s).rx = s.rx := rfl
@[simp] theorem lineWrite_acc (bytes : List Byte) : (lineWrite bytes s).acc = s.acc := rfl
@[simp] theorem lineWrite_curOp (bytes : List Byte) : (lineWrite bytes s).curOp = s.curOp := rfl
@[simp] theorem lineWrite_curCmd (bytes : List Byte) : (lineWrite bytes s).curCmd = s.curCmd := rfl
@[simp] theorem lineWrite_curFrame (bytes : List Byte) : (lineWrite bytes s).curFrame = [] := rfl
@[simp] theorem lineWrite_res (bytes : List Byte) : (lineWrite bytes s).res = s.res := rfl
@[simp] theorem lineWrite_resyncNeeded (bytes : List Byte) : (lineWrite bytes s).resyncNeeded = s.resyncNeeded := rfl
@[simp] theorem lineWrite_config (bytes : List Byte) : (lineWrite bytes s).config = s.config := rfl
@[simp] theorem lineWrite_lineOut (bytes : List Byte) : (lineWrite bytes s).lineOut = s.lineOut ++ bytes := rfl
@[simp] theorem lineWrite_lineIn (bytes : List Byte) : (lineWrite bytes s).lineIn = s.lineIn := rfl
@[simp] theorem lineWrite_taken (bytes : List Byte) : (lineWrite bytes s).taken = s.taken := rfl
@[simp] theorem lineWrite_held (bytes : List Byte) : (lineWrite bytes s).held = s.held := rfl
@[simp] theorem lineWrite_agenda (bytes : List Byte) : (lineWrite bytes s).agenda = s.agenda := rfl

/-! ## consume -/

@[simp] theorem consume_seq (b : Byte) : (consume b s).seq = s.seq := rfl
@[simp] theorem consume_rx (b : Byte) : (consume b s).rx = s.rx := rfl
@[simp] theorem consume_acc (b : Byte) : (consume b s).acc = s.acc := rfl
@[simp] theorem consume_curOp (b : Byte) : (consume b s).curOp = s.curOp := rfl
@[simp] theorem consume_curCmd (b : Byte) : (consume b s).curCmd = s.curCmd := rfl
@[simp] theorem consume_curFrame (b : Byte) : (consume b s).curFrame = s.curFrame := rfl
@[simp] theorem consume_res (b : Byte) : (consume b s).res = s.res := rfl
@[simp] theorem consume_resyncNeeded (b : Byte) : (consume b s).resyncNeeded = s.resyncNeeded := rfl
@[simp] theorem consume_config (b : Byte) : (consume b s).config = s.config := rfl
@[simp] theorem consume_lineOut (b : Byte) : (consume b s).lineOut = s.lineOut := rfl
@[simp] theorem consume_lineIn (b : Byte) : (consume b s).lineIn = s.lineIn ++ [b] := rfl
@[simp] theorem consume_taken (b : Byte) : (consume b s).taken = s.taken := rfl
@[simp] theorem consume_held (b : Byte) : (consume b s).held = s.held := rfl
@[simp] theorem consume_agenda (b : Byte) : (consume b s).agenda = s.agenda := rfl

/-! ## arm -/

@[simp] theorem arm_seq : (arm s).seq = .awaitingFrame := rfl
@[simp] theorem arm_rx : (arm s).rx = .expectStx := rfl
@[simp] theorem arm_acc : (arm s).acc = [] := rfl
@[simp] theorem arm_curOp : (arm s).curOp = s.curOp := rfl
@[simp] theorem arm_curCmd : (arm s).curCmd = s.curCmd := rfl
@[simp] theorem arm_curFrame : (arm s).curFrame = s.curFrame := rfl
@[simp] theorem arm_res : (arm s).res = s.res := rfl
@[simp] theorem arm_resyncNeeded : (arm s).resyncNeeded = s.resyncNeeded := rfl
@[simp] theorem arm_config : (arm s).config = s.config := rfl
@[simp] theorem arm_lineOut : (arm s).lineOut = s.lineOut := rfl
@[simp] theorem arm_lineIn : (arm s).lineIn = s.lineIn := rfl
@[simp] theorem arm_taken : (arm s).taken = s.taken := rfl
@[simp] theorem arm_held : (arm s).held = s.held := rfl
@[simp] theorem arm_agenda : (arm s).agenda = s.agenda := rfl

/-! ## disarm -/

@[simp] theorem disarm_seq : (disarm s).seq = s.seq := rfl
@[simp] theorem disarm_rx : (disarm s).rx = .off := rfl
@[simp] theorem disarm_acc : (disarm s).acc = [] := rfl
@[simp] theorem disarm_curOp : (disarm s).curOp = s.curOp := rfl
@[simp] theorem disarm_curCmd : (disarm s).curCmd = s.curCmd := rfl
@[simp] theorem disarm_curFrame : (disarm s).curFrame = s.curFrame := rfl
@[simp] theorem disarm_res : (disarm s).res = s.res := rfl
@[simp] theorem disarm_resyncNeeded : (disarm s).resyncNeeded = s.resyncNeeded := rfl
@[simp] theorem disarm_config : (disarm s).config = s.config := rfl
@[simp] theorem disarm_lineOut : (disarm s).lineOut = s.lineOut := rfl
@[simp] theorem disarm_lineIn : (disarm s).lineIn = s.lineIn := rfl
@[simp] theorem disarm_taken : (disarm s).taken = s.taken := rfl
@[simp] theorem disarm_held : (disarm s).held = s.held := rfl
@[simp] theorem disarm_agenda : (disarm s).agenda = s.agenda := rfl

/-! ## framerError -/

@[simp] theorem framerError_seq (kind : Kind) :
    (framerError kind s).seq = if kind = .ok then .validated else .failed := rfl
@[simp] theorem framerError_rx (kind : Kind) : (framerError kind s).rx = .off := rfl
@[simp] theorem framerError_acc (kind : Kind) : (framerError kind s).acc = [] := rfl
@[simp] theorem framerError_curOp (kind : Kind) : (framerError kind s).curOp = s.curOp := rfl
@[simp] theorem framerError_curCmd (kind : Kind) : (framerError kind s).curCmd = s.curCmd := rfl
@[simp] theorem framerError_curFrame (kind : Kind) : (framerError kind s).curFrame = s.curFrame := rfl
@[simp] theorem framerError_res (kind : Kind) :
    (framerError kind s).res = { kind := kind, received := 0, computed := 0, bytes := [] } := rfl
@[simp] theorem framerError_resyncNeeded (kind : Kind) : (framerError kind s).resyncNeeded = true := rfl
@[simp] theorem framerError_config (kind : Kind) : (framerError kind s).config = s.config := rfl
@[simp] theorem framerError_lineOut (kind : Kind) : (framerError kind s).lineOut = s.lineOut := rfl
@[simp] theorem framerError_lineIn (kind : Kind) : (framerError kind s).lineIn = s.lineIn := rfl
@[simp] theorem framerError_taken (kind : Kind) : (framerError kind s).taken = s.taken := rfl
@[simp] theorem framerError_held (kind : Kind) : (framerError kind s).held = s.held := rfl
@[simp] theorem framerError_agenda (kind : Kind) : (framerError kind s).agenda = s.agenda := rfl

/-! ## clearBlock -/

@[simp] theorem clearBlock_seq : (clearBlock s).seq = .idle := rfl
@[simp] theorem clearBlock_rx : (clearBlock s).rx = .off := rfl
@[simp] theorem clearBlock_acc : (clearBlock s).acc = [] := rfl
@[simp] theorem clearBlock_curOp : (clearBlock s).curOp = none := rfl
@[simp] theorem clearBlock_curCmd : (clearBlock s).curCmd = 0 := rfl
@[simp] theorem clearBlock_curFrame : (clearBlock s).curFrame = [] := rfl
@[simp] theorem clearBlock_res : (clearBlock s).res = Result.initial := rfl
@[simp] theorem clearBlock_resyncNeeded : (clearBlock s).resyncNeeded = false := rfl
@[simp] theorem clearBlock_config : (clearBlock s).config = s.config := rfl
@[simp] theorem clearBlock_lineOut : (clearBlock s).lineOut = s.lineOut := rfl
@[simp] theorem clearBlock_lineIn : (clearBlock s).lineIn = s.lineIn := rfl
@[simp] theorem clearBlock_taken : (clearBlock s).taken = s.taken := rfl
@[simp] theorem clearBlock_held : (clearBlock s).held = s.held := rfl
@[simp] theorem clearBlock_agenda : (clearBlock s).agenda = s.agenda := rfl

end Sys2Proof.Machine
end

