-- ==== Sys2Proof/Laws/Ops.lean ====
section
/-! SUPPORT. What the shared operations and exec can answer, said once. -/

namespace Sys2Proof.Machine

variable {s t : State}

theorem submit_idle (r : Request) (f : State → State) (h : s.seq = .idle) : submit r f s = .next (f s) := by
  simp [submit, h]

theorem submit_busy (r : Request) (f : State → State) (h : s.seq ≠ .idle) : submit r f s = .next (hold r s) := by
  simp [submit, h]

/-- Presenting a request always answers a next state: it is accepted in IDLE and held otherwise. -/
theorem submit_cases {r : Request} {f : State → State} (h : submit r f s = .next t) :
    (s.seq = .idle ∧ t = f s) ∨ (s.seq ≠ .idle ∧ t = hold r s) := by
  by_cases hs : s.seq = .idle
  · rw [submit_idle r f hs] at h
    exact .inl ⟨hs, by injection h with h; exact h.symm⟩
  · rw [submit_busy r f hs] at h
    exact .inr ⟨hs, by injection h with h; exact h.symm⟩

/-- A host DECODE posts the answer's own kind, and nothing but `res` and `seq` changes. -/
theorem postDecoded_eq (k : Byte) (r : DecodeResult) (s : State) :
    ∃ kind received computed bytes, postDecoded k r s = post kind received computed bytes s ∧
      (kind ≠ .ok → bytes = []) ∧ kind ≠ .unknownKey ∧ (∀ p c, r = .ok p c → bytes = p) ∧
      ((∀ p c, r ≠ .ok p c) → bytes = []) := by
  cases r <;> exact ⟨_, _, _, _, rfl, by simp⟩

/-- The first step of the operation an accepted request names (R106 to R111). -/
def Accepts (i : Instr) (s t : State) : Prop :=
  (∃ op cmd data, (op = .send ∨ op = .exchange) ∧ t = startWrite op cmd data s ∧
      ∃ r, requestOf i = some r ∧ r.cmd = cmd ∧ r.bytes = data ∧ r.rsvd = 0 ∧ (r.op = 1 ∨ r.op = 2)) ∨
    (∃ cmd data, i = .encode cmd data ∧ t = post .ok 0 0 (encodeFrame cmd data) (beginOp .encode cmd s)) ∨
    (∃ chk frame, i = .decode chk frame ∧ t = postDecoded chk (decodeFrame frame chk) (beginOp .decode chk s)) ∨
    (∃ op rsvd cmd bytes, i = .reservedOp op rsvd cmd bytes ∧ t = reject s)

/-- Everything exec can do when it answers a next state. -/
theorem exec_cases {i : Instr} (h : exec i s = .next t) :
    (∃ r, requestOf i = some r ∧ s.seq ≠ .idle ∧ t = hold r s) ∨
      (s.seq = .idle ∧ Accepts i s t) ∨
      (i = .take ∧ (s.seq = .validated ∨ s.seq = .failed) ∧ t = retire (deliver s)) ∨
      (∃ cut, i = .reset cut ∧
        t = clearBlock (if s.seq = .sent then lineWrite (s.curFrame.take cut) s else s)) := by
  cases i with
  | take =>
    simp only [exec, execTake] at h
    split at h
    · rename_i hs
      injection h with h
      exact .inr (.inr (.inl ⟨rfl, hs, h.symm⟩))
    · cases h
  | reset cut =>
    simp only [exec, execReset] at h
    injection h with h
    exact .inr (.inr (.inr ⟨cut, rfl, h.symm⟩))
  | encode cmd data =>
    simp only [exec, execEncode] at h
    obtain ⟨hs, rfl⟩ | ⟨hs, rfl⟩ := submit_cases h
    · exact .inr (.inl ⟨hs, .inr (.inl ⟨cmd, data, rfl, rfl⟩)⟩)
    · exact .inl ⟨_, rfl, hs, rfl⟩
  | decode chk frame =>
    simp only [exec, execDecode] at h
    obtain ⟨hs, rfl⟩ | ⟨hs, rfl⟩ := submit_cases h
    · exact .inr (.inl ⟨hs, .inr (.inr (.inl ⟨chk, frame, rfl, rfl⟩))⟩)
    · exact .inl ⟨_, rfl, hs, rfl⟩
  | reservedOp op rsvd cmd bytes =>
    simp only [exec, execReservedOp] at h
    obtain ⟨hs, rfl⟩ | ⟨hs, rfl⟩ := submit_cases h
    · exact .inr (.inl ⟨hs, .inr (.inr (.inr ⟨op, rsvd, cmd, bytes, rfl, rfl⟩))⟩)
    · exact .inl ⟨_, rfl, hs, rfl⟩
  | _ =>
    obtain ⟨hs, rfl⟩ | ⟨hs, rfl⟩ := submit_cases h
    · exact .inr (.inl ⟨hs, .inl ⟨_, _, _, by simp, rfl, _, rfl, by simp⟩⟩)
    · exact .inl ⟨_, rfl, hs, rfl⟩

/-- A request is a request again after decoding its record. -/
theorem requestOf_toInstr (r : Request) : requestOf r.toInstr = some r := by
  obtain ⟨op, rsvd, cmd, bytes⟩ := r
  simp only [Request.toInstr]
  split_ifs <;> simp_all [requestOf]

end Sys2Proof.Machine
end

