-- ==== Sys2Proof/Laws/Sequences.lean ====
section
/-! SUPPORT. Byte sequences and the three functions over them: the small lemmas of byteSum, checksum, slice, firstIndex,
encodeFrame and decodeFrame. -/

namespace Sys2Proof.Machine

@[simp] theorem byteSum_nil : byteSum [] = 0 := rfl

@[simp] theorem byteSum_cons (b : Byte) (bs : List Byte) : byteSum (b :: bs) = b.toNat + byteSum bs := rfl

@[simp] theorem byteSum_append (xs ys : List Byte) : byteSum (xs ++ ys) = byteSum xs + byteSum ys := by
  induction xs with
  | nil => simp
  | cons b bs ih => simp [ih, Nat.add_assoc]

@[simp] theorem checksum_toNat (bs : List Byte) : (checksum bs).toNat = byteSum bs % 256 := by
  simp [checksum]

theorem checksum_cons (b : Byte) (bs : List Byte) : checksum (b :: bs) = b + checksum bs := by
  apply BitVec.eq_of_toNat_eq
  simp

/-! ## firstIndex -/

theorem firstIndex_eq_none {v : Byte} {xs : List Byte} : firstIndex v xs 0 = none ↔ v ∉ xs := by
  induction xs with
  | nil => simp [firstIndex]
  | cons b bs ih =>
    by_cases hb : b = v
    · simp [firstIndex, hb]
    · simp [firstIndex, hb, ih, Ne.symm hb]

/-- The first occurrence of `v` lies right after a part that does not hold it. -/
theorem firstIndex_append {v : Byte} {p : List Byte} (hp : v ∉ p) (q : List Byte) :
    firstIndex v (p ++ v :: q) 0 = some p.length := by
  induction p with
  | nil => simp [firstIndex]
  | cons b bs ih =>
    simp only [List.mem_cons, not_or] at hp
    simp [firstIndex, Ne.symm hp.1, ih hp.2]

/-- A sequence that holds `v` splits at its first occurrence. -/
theorem exists_split_first {v : Byte} {xs : List Byte} (h : v ∈ xs) : ∃ p q, xs = p ++ v :: q ∧ v ∉ p := by
  induction xs with
  | nil => simp at h
  | cons b bs ih =>
    by_cases hb : b = v
    · exact ⟨[], bs, by simp [hb], by simp⟩
    · obtain ⟨p, q, rfl, hp⟩ := ih (by simpa [Ne.symm hb] using h)
      exact ⟨b :: p, q, by simp, by simp [hp, Ne.symm hb]⟩

/-! ## slice -/

theorem slice_one_cons (a : Byte) (xs : List Byte) (j : Nat) : slice (a :: xs) 1 (j + 1) = xs.take j := by
  simp [slice]

/-! ## decodeFrame -/

/-- DECODE of a sequence that does not start with STX (R98, check 1). -/
theorem decodeFrame_noStx {f : List Byte} (h : f.head? ≠ some STX) (k : Byte) : decodeFrame f k = .noStx := by
  simp [decodeFrame, h]

/-- DECODE of a sequence with no ETX after its STX (R98, check 2). -/
theorem decodeFrame_noEtx {p : List Byte} (hp : ETX ∉ p) (k : Byte) : decodeFrame (STX :: p) k = .noEtx := by
  have h := firstIndex_eq_none.mpr hp
  simp [decodeFrame, firstIndex, h]

/-- DECODE of a sequence whose first ETX is not its last byte (R98, check 2a). -/
theorem decodeFrame_trailing {p q : List Byte} (hp : ETX ∉ p) (hq : q ≠ []) (k : Byte) :
    decodeFrame (STX :: (p ++ ETX :: q)) k = .trailing := by
  have h := firstIndex_append hp q
  have hl : 0 < q.length := List.length_pos_iff.mpr hq
  have hne : p.length + 1 ≠ p.length + (q.length + 1) + 1 - 1 := by omega
  simp only [decodeFrame, firstIndex, h, List.head?_cons, ne_eq, not_true_eq_false, if_false, Option.map_some,
    List.length_cons, List.length_append]
  rw [if_pos hne]

/-- DECODE of a framed payload (R98, check 3 and success). -/
theorem decodeFrame_framed {p : List Byte} (hp : ETX ∉ p) (k : Byte) :
    decodeFrame (STX :: (p ++ [ETX])) k =
      if k = checksum (p ++ [ETX]) then .ok p (checksum (p ++ [ETX])) else .mismatch k (checksum (p ++ [ETX])) := by
  have h := firstIndex_append hp []
  have h1 : slice (STX :: (p ++ [ETX])) 1 (p.length + 1 + 1) = p ++ [ETX] := by
    rw [slice_one_cons, List.take_of_length_le (by simp)]
  have h2 : slice (STX :: (p ++ [ETX])) 1 (p.length + 1) = p := by
    rw [slice_one_cons, List.take_left]
  simp only [decodeFrame, firstIndex, h, List.head?_cons, ne_eq, not_true_eq_false, if_false, Option.map_some,
    List.length_cons, List.length_append, List.length_nil, h1, h2, Nat.add_sub_cancel]
  split <;> simp_all

/-- Every sequence falls under one of the four forms that DECODE tells apart. -/
theorem frame_forms (f : List Byte) :
    f.head? ≠ some STX ∨ (∃ p, f = STX :: p ∧ ETX ∉ p) ∨
      (∃ p q, f = STX :: (p ++ ETX :: q) ∧ ETX ∉ p ∧ q ≠ []) ∨ ∃ p, f = STX :: (p ++ [ETX]) ∧ ETX ∉ p := by
  match f with
  | [] => simp
  | a :: xs =>
    by_cases ha : a = STX
    · subst ha
      by_cases hx : ETX ∈ xs
      · obtain ⟨p, q, rfl, hp⟩ := exists_split_first hx
        by_cases hq : q = []
        · subst hq
          exact .inr (.inr (.inr ⟨p, rfl, hp⟩))
        · exact .inr (.inr (.inl ⟨p, q, rfl, hp, hq⟩))
      · exact .inr (.inl ⟨xs, rfl, hx⟩)
    · exact .inl (by simpa using ha)

end Sys2Proof.Machine
end

