-- ==== Sys2Proof/Laws/Step.lean ====
section
/-! SUPPORT. What one event and one step can do when they answer a next state. -/

namespace Sys2Proof.Machine

variable {s t : State}

theorem step_nil (h : s.agenda = []) : step s = .next s := by
  simp [step, h]

theorem step_cons {e : Event} {rest : List Event} (h : s.agenda = e :: rest) :
    step s = runEvent e { s with agenda := rest } := by
  simp [step, h]

/-- A step waits, or its first event happens. -/
theorem step_cases (h : step s = .next t) :
    (s.agenda = [] ∧ t = s) ∨
      ∃ e rest, s.agenda = e :: rest ∧ runEvent e { s with agenda := rest } = .next t := by
  cases ha : s.agenda with
  | nil =>
    rw [step_nil ha] at h
    exact .inl ⟨rfl, by injection h with h; exact h.symm⟩
  | cons e rest => exact .inr ⟨e, rest, rfl, step_cons ha ▸ h⟩

theorem lineTxDone_cases (h : lineTxDone s = .next t) :
    s.seq = .sent ∧
      ((s.curOp = some .send ∧ t = post .ok 0 0 [] (lineWrite s.curFrame s)) ∨
        (s.curOp ≠ some .send ∧ t = arm (lineWrite s.curFrame s))) := by
  simp only [lineTxDone, afterWrite, lineWrite_curOp] at h
  split at h
  · rename_i hs
    injection h with h
    refine ⟨hs, ?_⟩
    by_cases ho : s.curOp = some .send
    · exact .inl ⟨ho, by simpa [ho] using h.symm⟩
    · exact .inr ⟨ho, by simpa [ho] using h.symm⟩
  · cases h

theorem lineTxFail_cases {p : Nat} (h : lineTxFail p s = .next t) :
    s.seq = .sent ∧ t = raiseLineError .ioError (lineWrite (s.curFrame.take p) s) := by
  simp only [lineTxFail] at h
  split at h
  · rename_i hs
    injection h with h
    exact ⟨hs, h.symm⟩
  · cases h

/-- What a read answer can do (R88 to R93). -/
theorem lineAnswer_cases {a : ReadAnswer} (h : lineAnswer a s = .next t) :
    (a = .byte STX ∧ s.rx = .expectStx ∧ t = { consume STX s with acc := [STX], rx := .body }) ∨
      (∃ b, a = .byte b ∧ b ≠ STX ∧ s.rx = .expectStx ∧ t = framerError .framingNoStx (consume b s)) ∨
      (∃ b, a = .byte b ∧ s.rx = .body ∧ s.atBound = true ∧ t = framerError .framingTooLong (consume b s)) ∨
      (a = .byte ETX ∧ s.rx = .body ∧ s.atBound = false ∧
        t = { consume ETX s with acc := s.acc ++ [ETX], rx := .expectChk }) ∨
      (∃ b, a = .byte b ∧ b ≠ ETX ∧ s.rx = .body ∧ s.atBound = false ∧
        t = { consume b s with acc := s.acc ++ [b] }) ∨
      (∃ b p c, a = .byte b ∧ s.rx = .expectChk ∧ decodeFrame s.acc b = .ok p c ∧
        t = post .ok b c p (disarm (consume b s))) ∨
      (∃ b r c, a = .byte b ∧ s.rx = .expectChk ∧ decodeFrame s.acc b = .mismatch r c ∧
        t = post .checksumMismatch r c [] (disarm (consume b s))) ∨
      (a = .timeout ∧ s.rx ≠ .off ∧ s.config.readTimeout.isSome ∧ t = framerError .timeout s) ∨
      (a = .ioFail ∧ s.rx ≠ .off ∧ t = framerError .ioError s) := by
  cases a with
  | timeout =>
    simp only [lineAnswer, lineTimeout] at h
    split at h
    · rename_i hs
      injection h with h
      simp [hs, h.symm]
    · cases h
  | ioFail =>
    simp only [lineAnswer, lineIoFail] at h
    split at h
    · rename_i hs
      injection h with h
      simp [hs, h.symm]
    · cases h
  | byte b =>
    simp only [lineAnswer, lineByte] at h
    cases hr : s.rx with
    | off => simp [hr] at h
    | expectStx =>
      simp only [hr, readStx] at h
      injection h with h
      by_cases hb : b = STX
      · simp [hb, ← h]
      · simp [hb, ← h]
    | body =>
      simp only [hr, readBody] at h
      injection h with h
      have hc : (consume b s).atBound = s.atBound := rfl
      rw [hc] at h
      cases hbnd : s.atBound with
      | true => simp [hbnd] at h; simp [← h]
      | false =>
        by_cases hb : b = ETX
        · simp [hbnd, hb] at h; simp [hb, ← h]
        · simp [hbnd, hb] at h; simp [hb, ← h, hr]
    | expectChk =>
      simp only [hr, readChk, consume_acc] at h
      cases hd : decodeFrame s.acc b with
      | ok p c => simp [hd] at h; simp [hd, ← h]
      | mismatch r c => simp [hd] at h; simp [hd, ← h]
      | noStx => simp [hd] at h
      | noEtx => simp [hd] at h
      | trailing => simp [hd] at h

/-- An accepted held request runs as an instruction in the state that no longer holds it. -/
theorem acceptHeld_cases {n : Nat} (h : acceptHeld n s = .next t) :
    ∃ r, s.held[n]? = some r ∧ s.seq = .idle ∧ exec r.toInstr { s with held := s.held.eraseIdx n } = .next t := by
  simp only [acceptHeld] at h
  cases hr : s.held[n]? with
  | none => simp [hr] at h
  | some r =>
    by_cases hs : s.seq = .idle
    · exact ⟨r, rfl, hs, by simpa [hr, hs] using h⟩
    · simp [hr, hs] at h

/-- A host item runs the instruction it decodes to. -/
theorem runItem_cases {item : HostItem} (h : runItem item s = .next t) :
    ∃ i, decode item = .ok i ∧ exec i s = .next t := by
  simp only [runItem] at h
  cases hd : decode item with
  | error e => simp [hd] at h
  | ok i => exact ⟨i, rfl, by simpa [hd] using h⟩

end Sys2Proof.Machine
end

