-- ==== Sys2Proof/Laws/Environment.lean ====
section
/-! SUPPORT. What an environment's event changes in the state, one lemma a field, and what one environment step is. -/

namespace Sys2Proof.Machine

variable (e : Option Event) (s : State)

@[simp] theorem offer_seq : (s.offer e).seq = s.seq := rfl
@[simp] theorem offer_rx : (s.offer e).rx = s.rx := rfl
@[simp] theorem offer_acc : (s.offer e).acc = s.acc := rfl
@[simp] theorem offer_curOp : (s.offer e).curOp = s.curOp := rfl
@[simp] theorem offer_curCmd : (s.offer e).curCmd = s.curCmd := rfl
@[simp] theorem offer_curFrame : (s.offer e).curFrame = s.curFrame := rfl
@[simp] theorem offer_res : (s.offer e).res = s.res := rfl
@[simp] theorem offer_resyncNeeded : (s.offer e).resyncNeeded = s.resyncNeeded := rfl
@[simp] theorem offer_config : (s.offer e).config = s.config := rfl
@[simp] theorem offer_lineOut : (s.offer e).lineOut = s.lineOut := rfl
@[simp] theorem offer_lineIn : (s.offer e).lineIn = s.lineIn := rfl
@[simp] theorem offer_taken : (s.offer e).taken = s.taken := rfl
@[simp] theorem offer_held : (s.offer e).held = s.held := rfl
@[simp] theorem offer_agenda : (s.offer e).agenda = s.agenda ++ e.toList := rfl

/-- A silent environment changes nothing. -/
@[simp] theorem offer_none : s.offer none = s := by
  simp [State.offer]

/-- Events to come are no part of a good state. -/
theorem inv_offer {s : State} (h : s.Inv) : (s.offer e).Inv :=
  ⟨h.configLegal, h.readingIff, h.offEmpty, h.expectStxEmpty, h.bodyShape, h.chkShape, h.accBound, h.sentIff, h.idleClean,
    h.sentOp, h.awaitingOp, h.validatedOk, h.failedError⟩

theorem bounded_offer {s : State} (h : s.Bounded) : (s.offer e).Bounded :=
  ⟨h.frame, h.result, h.held⟩

theorem environmentStep_none : environmentStep none s = step s := by
  simp [environmentStep]

/-- With nothing else to come, the event that the environment makes is the one that happens. -/
theorem environmentStep_some {s : State} (e : Event) (h : s.agenda = []) : environmentStep (some e) s = runEvent e s := by
  have hs : { s.offer (some e) with agenda := [] } = s := by
    cases s; simp_all [State.offer]
  rw [environmentStep, step_cons (e := e) (rest := []) (by simp [h]), hs]

/-- Every step of the machine alone is a move. -/
theorem moves_of_step {s t : State} (h : step s = .next t) : Moves s t :=
  ⟨none, environmentStep_none s ▸ h⟩

theorem streamed_zero (bytes : Nat → Byte) : streamed bytes 0 = [] := rfl

theorem streamed_succ (bytes : Nat → Byte) (k : Nat) : streamed bytes (k + 1) = streamed bytes k ++ [bytes k] := by
  simp [streamed, List.range_succ]

end Sys2Proof.Machine
end

