-- ==== Sys2Proof/Laws/PerInstr.lean ====
section
/-! SUPPORT. The family EncodedFormat: every well-formed instruction is encoded in the format its row of
spec/opcode_table.json has (frame, host_op, host_step, reset_input), and a request's header counts its bytes (R67). -/

namespace Sys2Proof.Laws

/-- The formats of the opcode table. -/
inductive Format
  | frame
  | hostOp
  | hostStep
  | resetInput
  deriving DecidableEq, Repr

/-- The format column of the table. -/
def formatOf : Instr → Format
  | .statusQuery => .frame
  | .displayQuery => .frame
  | .keyPress _ => .frame
  | .tune => .frame
  | .encode _ _ => .hostOp
  | .send _ _ => .hostOp
  | .exchange _ _ => .hostOp
  | .decode _ _ => .hostOp
  | .reservedOp _ _ _ _ => .hostOp
  | .take => .hostStep
  | .reset _ => .resetInput

/-- The format of an item, and that a request's len field is the number of its bytes. -/
def hasFormat : Format → HostItem → Prop
  | .frame, .frame _ => True
  | .hostOp, .request header bytes => (headerLen header).toNat = bytes.length
  | .hostStep, .takeStep => True
  | .resetInput, .resetInput _ => True
  | _, _ => False

/-- The len field of a header word is the length it was made with, when that fits 16 bits. -/
theorem headerLen_headerWord (op : BitVec 3) (rsvd : BitVec 5) (cmd : Byte) {n : Nat} (h : n < 65536) :
    (headerLen (headerWord op rsvd cmd n)).toNat = n := by
  have e : headerLen (headerWord op rsvd cmd n) = BitVec.ofNat 16 n := by
    simp only [headerLen, headerWord]
    rw [BitVec.extractLsb'_append_eq_of_le (by omega), BitVec.extractLsb'_append_eq_of_le (by omega),
      BitVec.extractLsb'_append_eq_of_le (by omega)]
    simp
  simp [e, Nat.mod_eq_of_lt h]

def EncodedFormat.Statement (i : Instr) : Prop :=
  wellFormed i = true → hasFormat (formatOf i) (encode i)

theorem EncodedFormat.statusQuery : EncodedFormat.Statement .statusQuery := fun _ => trivial

theorem EncodedFormat.displayQuery : EncodedFormat.Statement .displayQuery := fun _ => trivial

theorem EncodedFormat.keyPress (key : Byte) : EncodedFormat.Statement (.keyPress key) := fun _ => trivial

theorem EncodedFormat.tune : EncodedFormat.Statement .tune := fun _ => trivial

theorem EncodedFormat.encode (cmd : Byte) (data : List Byte) : EncodedFormat.Statement (.encode cmd data) :=
  fun h => headerLen_headerWord _ _ _ (by simpa [wellFormed] using h)

theorem EncodedFormat.send (cmd : Byte) (data : List Byte) : EncodedFormat.Statement (.send cmd data) :=
  fun h => headerLen_headerWord _ _ _ (by simpa [wellFormed] using h)

theorem EncodedFormat.exchange (cmd : Byte) (data : List Byte) : EncodedFormat.Statement (.exchange cmd data) :=
  fun h => headerLen_headerWord _ _ _ (by simpa [wellFormed] using h)

theorem EncodedFormat.decode (chk : Byte) (frame : List Byte) : EncodedFormat.Statement (.decode chk frame) :=
  fun h => headerLen_headerWord _ _ _ (by simpa [wellFormed] using h)

theorem EncodedFormat.reservedOp (op : BitVec 3) (rsvd : BitVec 5) (cmd : Byte) (bytes : List Byte) :
    EncodedFormat.Statement (.reservedOp op rsvd cmd bytes) :=
  fun h => headerLen_headerWord _ _ _ (by simp [wellFormed] at h; exact h.2)

theorem EncodedFormat.take : EncodedFormat.Statement .take := fun _ => trivial

theorem EncodedFormat.reset (cut : Nat) : EncodedFormat.Statement (.reset cut) := fun _ => trivial

end Sys2Proof.Laws
end

