-- ==== Sys2Proof/Tests/Slice0.lean ====
section
/-! SUPPORT. Tests. Expected values are those of spec/95_test_vectors.md, or bits written out from the encodings of
spec/30_encoding.md; each test names its source. After them comes, for every statement that has hypotheses, a witness that
meets them together, each clause on its own. -/

namespace Sys2Proof.Tests

open Sys2Proof Sys2Proof.Machine

/-! ## Small states -/

/-- The state of a `next` answer. -/
def stateAfter : Answer → Option State
  | .next s => some s
  | .fault _ => none
  | .refused _ => none

/-- The default configuration with a timeout configured, as 95_test_vectors.md assumes. -/
def timed : Config := { Config.default with readTimeout := some 1 }

/-- S0 with events to come. -/
def idle (agenda : List Event) : State :=
  { State.reset with config := timed, agenda := agenda }

/-- `02 41 03 44` waits for its write. -/
def sent (op : HostOp) (agenda : List Event) : State :=
  { idle agenda with seq := .sent, curOp := some op, curCmd := 0x41, curFrame := [0x02, 0x41, 0x03, 0x44] }

/-- An EXCHANGE is reading its response, with the given bound. -/
def reading (maxFrame : Option Nat) (rx : RxState) (acc : List Byte) (agenda : List Event) : State :=
  { idle agenda with
    seq := .awaitingFrame, curOp := some .exchange, curCmd := 0x41, rx := rx, acc := acc
    config := { timed with maxFrame := maxFrame } }

/-- A result waits. -/
def posted (res : Result) (agenda : List Event) : State :=
  { idle agenda with
    seq := if res.kind = .ok then .validated else .failed, curOp := some .decode, curCmd := 0x44, res := res }

/-- The result of 95_test_vectors.md L2.5, `DECODE [02 41 03], 44`. -/
def okResult : Result := ⟨.ok, 0x44, 0x44, [0x41]⟩

/-- A TIMEOUT result. -/
def timeoutResult : Result := ⟨.timeout, 0, 0, []⟩

/-! ## Well-formedness: one ill-formed term for each check -/

theorem bytesFit_replicate (n : Nat) : bytesFit (List.replicate n 0) = decide (n < 65536) := by
  simp [bytesFit]

theorem test_wf_encode_too_long : wellFormed (.encode 0x41 (List.replicate 65536 0)) = false := by
  rw [wellFormed, bytesFit_replicate]; decide

theorem test_wf_send_too_long : wellFormed (.send 0x41 (List.replicate 65536 0)) = false := by
  rw [wellFormed, bytesFit_replicate]; decide

theorem test_wf_exchange_too_long : wellFormed (.exchange 0x41 (List.replicate 65536 0)) = false := by
  rw [wellFormed, bytesFit_replicate]; decide

theorem test_wf_decode_too_long : wellFormed (.decode 0x44 (List.replicate 65536 0)) = false := by
  rw [wellFormed, bytesFit_replicate]; decide

theorem test_wf_reserved_too_long : wellFormed (.reservedOp 4 0 0 (List.replicate 65536 0)) = false := by
  rw [wellFormed, bytesFit_replicate]; decide

/-- A legal request is no RESERVED_OP (R68). -/
theorem test_wf_reserved_legal : wellFormed (.reservedOp 1 0 0x41 []) = false := by decide

/-- The longest data that the len field can give (R10). -/
theorem test_wf_encode_longest : wellFormed (.encode 0x41 (List.replicate 65535 0)) = true := by
  rw [wellFormed, bytesFit_replicate]; decide

/-! ## Decoding: words written out bit by bit -/

/-- R56: index 0 first. -/
theorem test_decode_status_query :
    decode (.frame [0b00000010, 0b01000001, 0b00000011, 0b01000100]) = .ok .statusQuery := by decide

/-- R57. -/
theorem test_decode_display_query :
    decode (.frame [0b00000010, 0b01001100, 0b00000011, 0b01001111]) = .ok .displayQuery := by decide

/-- R58 with `k = 9` (ARROW_DOWN) and with `k = 28` (NUM_5), whose checksum is 6A (90_conflicts.md C4). -/
theorem test_decode_key_press :
    decode (.frame [0b00000010, 0b01001011, 0b00001001, 0b00000011, 0b01010111]) = .ok (.keyPress 9) ∧
    decode (.frame [0b00000010, 0b01001011, 0b00011100, 0b00000011, 0b01101010]) = .ok (.keyPress 28) := by decide

/-- R58: the source's literal 6B is no KEY_PRESS frame (90_conflicts.md C4). -/
theorem test_decode_key_press_bad_checksum :
    decode (.frame [0x02, 0x4B, 0x1C, 0x03, 0x6B]) = .error .notACommandFrame := by decide

/-- R59. -/
theorem test_decode_tune :
    decode (.frame [0b00000010, 0b01010100, 0, 0, 0, 0, 0, 0b00000011, 0b01010111]) = .ok .tune := by decide

/-- R67: len, cmd, rsvd, op from the top bit down, for each legal op. -/
theorem test_decode_requests :
    decode (.request 0b0000000000000001_01001011_00000_000#32 [0x1C]) = .ok (.encode 0x4B [0x1C]) ∧
    decode (.request 0b0000000000000001_01001011_00000_001#32 [0x1C]) = .ok (.send 0x4B [0x1C]) ∧
    decode (.request 0b0000000000000000_01000001_00000_010#32 []) = .ok (.exchange 0x41 []) ∧
    decode (.request 0b0000000000000011_01000100_00000_011#32 [0x02, 0x41, 0x03]) =
      .ok (.decode 0x44 [0x02, 0x41, 0x03]) := by decide

/-- R67, R68: op 4 and op 7, and a legal op with one rsvd bit, lowest and highest. -/
theorem test_decode_illegal_requests :
    decode (.request 0b0000000000000000_00000000_00000_100#32 []) = .ok (.reservedOp 4 0 0 []) ∧
    decode (.request 0b0000000000000000_00000000_00000_111#32 []) = .ok (.reservedOp 7 0 0 []) ∧
    decode (.request 0b0000000000000000_00000000_00001_001#32 []) = .ok (.reservedOp 1 1 0 []) ∧
    decode (.request 0b0000000000000000_00000000_10000_010#32 []) = .ok (.reservedOp 2 16 0 []) := by decide

/-- R67: len is the number of bytes. -/
theorem test_decode_length_mismatch :
    decode (.request 0x00014B00#32 []) = .error .lengthMismatch := by decide

theorem test_decode_steps : decode .takeStep = .ok .take ∧ decode (.resetInput 3) = .ok (.reset 3) := by decide

/-- The match values of spec/opcode_table.json: 8-bit rows by command byte, 32-bit rows by op. -/
theorem test_table_words :
    decodeTableWord 8 0x41 = some .statusQuery ∧ decodeTableWord 8 0x4C = some .displayQuery ∧
    decodeTableWord 8 0x4B = some (.keyPress 0) ∧ decodeTableWord 8 0x54 = some .tune ∧
    decodeTableWord 32 0 = some (.encode 0 []) ∧ decodeTableWord 32 1 = some (.send 0 []) ∧
    decodeTableWord 32 2 = some (.exchange 0 []) ∧ decodeTableWord 32 3 = some (.decode 0 []) ∧
    decodeTableWord 32 4 = some (.reservedOp 4 0 0 []) := by decide

/-- A header whose len is 1 takes its one byte, zero, from above nbits. -/
theorem test_table_word_with_data :
    decodeTableWord 32 0x00014B00 = some (.encode 0x4B [0]) := by decide

/-! ## CHECKSUM, ENCODE, DECODE (95_test_vectors.md L2.1 to L2.3; 40_tx_encoder.md R73) -/

theorem test_checksum :
    checksum [] = 0 ∧ checksum [0x41, 0x03] = 0x44 ∧ checksum [0xFF, 0x03] = 0x02 ∧ checksum [0xFD, 0x03] = 0 := by
  decide

theorem test_encode_frame :
    encodeFrame 0x41 [] = [0x02, 0x41, 0x03, 0x44] ∧
    encodeFrame 0x4B [0x1C] = [0x02, 0x4B, 0x1C, 0x03, 0x6A] ∧
    encodeFrame 0xFF [0xFF] = [0x02, 0xFF, 0xFF, 0x03, 0x01] ∧
    encodeFrame 0x41 [1, 2, 3] = [0x02, 0x41, 0x01, 0x02, 0x03, 0x03, 0x4A] := by decide

theorem test_decode_frame_ok :
    decodeFrame [0x02, 0x41, 0x03] 0x44 = .ok [0x41] 0x44 ∧ decodeFrame [0x02, 0x03] 0x03 = .ok [] 0x03 ∧
    decodeFrame [0x02, 0x02, 0x03] 0x05 = .ok [0x02] 0x05 ∧ decodeFrame [0x02, 0xFF, 0x03] 0x02 = .ok [0xFF] 0x02 := by
  decide

theorem test_decode_frame_errors :
    decodeFrame [0x02, 0x41, 0x03] 0x45 = .mismatch 0x45 0x44 ∧ decodeFrame [] 0 = .noStx ∧
    decodeFrame [0x41, 0x03] 0xFF = .noStx ∧ decodeFrame [0x02, 0x41, 0x42] 0x86 = .noEtx ∧
    decodeFrame [0x02, 0x41, 0x03, 0x05] 0x44 = .trailing ∧ decodeFrame [0x02, 0x03, 0x03] 0x06 = .trailing := by decide

/-! ## One step of each instruction (95_test_vectors.md L2.5, L2.6) -/

theorem test_status_query :
    (stateAfter (step (State.reset.withFetchWord 8 0x41))).map (fun t => (t.seq, t.curOp, t.curFrame)) =
      some (.sent, some .exchange, [0x02, 0x41, 0x03, 0x44]) := by decide

theorem test_display_query :
    (stateAfter (step (State.reset.withFetchWord 8 0x4C))).map (fun t => (t.seq, t.curOp, t.curFrame)) =
      some (.sent, some .exchange, [0x02, 0x4C, 0x03, 0x4F]) := by decide

/-- `NUM_5`. -/
theorem test_key_press :
    (stateAfter (exec (.keyPress 0x1C) State.reset)).map (fun t => (t.seq, t.curOp, t.curFrame)) =
      some (.sent, some .send, [0x02, 0x4B, 0x1C, 0x03, 0x6A]) := by decide

theorem test_tune :
    (stateAfter (step (State.reset.withFetchWord 8 0x54))).map (fun t => (t.seq, t.curOp, t.curFrame)) =
      some (.sent, some .send, [0x02, 0x54, 0, 0, 0, 0, 0, 0x03, 0x57]) := by decide

theorem test_encode :
    (stateAfter (step (idle [.host (.request 0x00014B00#32 [0x1C])]))).map (fun t => (t.seq, t.res, t.lineOut)) =
      some (.validated, ⟨.ok, 0, 0, [0x02, 0x4B, 0x1C, 0x03, 0x6A]⟩, []) := by decide

/-- The sequencer hold: in SENT a second request waits and the frame stays. -/
theorem test_send_held :
    (stateAfter (step (sent .send [.host (.request 0x00004101#32 [])]))).map (fun t => (t.seq, t.curFrame, t.held)) =
      some (.sent, [0x02, 0x41, 0x03, 0x44], [⟨1, 0, 0x41, []⟩]) := by decide

theorem test_exchange :
    (stateAfter (step (idle [.host (.request 0x00004C02#32 [])]))).map (fun t => (t.seq, t.curOp, t.curCmd, t.curFrame)) =
      some (.sent, some .exchange, 0x4C, [0x02, 0x4C, 0x03, 0x4F]) := by decide

/-- `RES0 = 006A6B07`: the source's E2 literal. -/
theorem test_decode_mismatch :
    (stateAfter (exec (.decode 0x6B [0x02, 0x4B, 0x1C, 0x03]) State.reset)).map
      (fun t => (t.seq, (Delivery.mk t.res t.resyncNeeded).res0)) = some (.failed, 0x006A6B07#32) := by decide

/-- DECODE posts FRAMING_NO_STX and does not set `resync_needed`. -/
theorem test_decode_no_stx :
    (stateAfter (exec (.decode 0 []) State.reset)).map (fun t => (Delivery.mk t.res t.resyncNeeded).res0) =
      some 0x00000003#32 := by decide

/-- `RES0 = 01000008`: the resync bit is passed on, not set. -/
theorem test_reserved_op :
    (stateAfter (exec (.reservedOp 4 0 0 []) { State.reset with resyncNeeded := true })).map
      (fun t => (t.seq, (Delivery.mk t.res t.resyncNeeded).res0)) = some (.failed, 0x01000008#32) := by decide

/-- The result is delivered with `RES0 = 00444400` and `RES1 = 1`. -/
theorem test_take_delivers :
    (stateAfter (exec .take (posted okResult []))).map (fun t => t.taken.map (fun d => (d.res0, d.res1))) =
      some [(0x00444400#32, 1#32)] := by decide

/-- TAKE goes back to S0 but for what the host has received. -/
theorem test_take_returns :
    (stateAfter (exec .take (posted okResult []))).map (fun t => { t with taken := [] }) = some (idle []) := by decide

/-- RESET in SENT with a prefix of two bytes. -/
theorem test_reset_sent :
    stateAfter (exec (.reset 2) (sent .send [])) = some { idle [] with lineOut := [0x02, 0x41] } := by decide

/-- RESET in FAILED holding TIMEOUT: never delivered, the bit cleared. -/
theorem test_reset_failed :
    stateAfter (exec (.reset 0) { posted timeoutResult [] with resyncNeeded := true }) = some (idle []) := by decide

/-! ## The line (95_test_vectors.md L2.4 to L2.6) -/

/-- `SEND 'A', []` then `TxFail(2)`: IO_ERROR, `RES0 = 01000001`, line_out `02 41`. -/
theorem test_tx_fail :
    (stateAfter (step (sent .send [.txFail 2]))).map
      (fun t => (t.seq, (Delivery.mk t.res t.resyncNeeded).res0, t.lineOut, t.curFrame)) =
      some (.failed, 0x01000001#32, [0x02, 0x41], []) := by decide

/-- `acc = [02 41 42]` at the bound 3: the ETX fails (R136 item 5). -/
theorem test_body_at_bound :
    (stateAfter (step (reading (some 3) .body [0x02, 0x41, 0x42] [.answer (.byte 0x03)]))).map
      (fun t => (t.seq, (Delivery.mk t.res t.resyncNeeded).res0, t.lineIn)) =
      some (.failed, 0x01000005#32, [0x03]) := by decide

theorem test_recv_ok :
    recv (some 4096) [.byte 0x02, .byte 0x41, .byte 0x42, .byte 0x03, .byte 0x86] =
      some (⟨.ok, 0x86, 0x86, [0x41, 0x42]⟩, 5) ∧
    recv (some 4096) [.byte 0x02, .byte 0x41, .byte 0x03, .byte 0x44, .byte 0x99] =
      some (⟨.ok, 0x44, 0x44, [0x41]⟩, 4) ∧
    recv (some 3) [.byte 0x02, .byte 0x41, .byte 0x03, .byte 0x44] = some (⟨.ok, 0x44, 0x44, [0x41]⟩, 4) ∧
    recv (some 2) [.byte 0x02, .byte 0x03, .byte 0x03] = some (⟨.ok, 0x03, 0x03, []⟩, 3) := by decide

theorem test_recv_errors :
    recv (some 4096) [.byte 0x02, .byte 0x41, .byte 0x03, .byte 0x03] = some (⟨.checksumMismatch, 0x03, 0x44, []⟩, 4) ∧
    recv (some 4096) [.byte 0x03] = some (⟨.framingNoStx, 0, 0, []⟩, 1) ∧
    recv (some 4096) [.byte 0x02, .byte 0x41, .byte 0x03, .timeout] = some (⟨.timeout, 0, 0, []⟩, 4) ∧
    recv (some 4096) [.ioFail] = some (⟨.ioError, 0, 0, []⟩, 1) ∧
    recv (some 3) [.byte 0x02, .byte 0x41, .byte 0x42, .byte 0x03] = some (⟨.framingTooLong, 0, 0, []⟩, 4) ∧
    recv none [.byte 0x02, .byte 0x41, .byte 0x41] = none := by decide

/-- The status view's table. -/
theorem test_status_word :
    State.reset.statusWord = 0 ∧ (sent .send []).statusWord = 1 ∧
    (reading none .expectStx [] []).statusWord = 0x0000000A#32 ∧
    (reading none .body [0x02] []).statusWord = 0x00000012#32 ∧
    (reading none .expectChk [0x02, 0x03] []).statusWord = 0x0000001A#32 ∧
    (posted okResult []).statusWord = 0x00000003#32 ∧
    ({ posted timeoutResult [] with resyncNeeded := true } : State).statusWord = 0x00000024#32 := by decide

/-- Program 2: the mismatch is reported with both bytes by its kind; Program 1: the payload in its wrapper. -/
theorem test_pseudo_report :
    Pseudo.report .getDisplay ⟨⟨.checksumMismatch, 0x00, 0x47, []⟩, false⟩ = .error .checksumMismatch 0x00 0x47 ∧
    Pseudo.report .getStatus ⟨⟨.ok, 0x86, 0x86, [0x53, 0x30]⟩, false⟩ = .statusResponse [0x53, 0x30] := by decide

/-! ## Good states, one for each value of `seq` and `rx` -/

theorem inv_idle (agenda : List Event) : (idle agenda).Inv := by
  constructor <;> simp [idle, State.reset, timed, Config.default, Config.wf, Result.initial]

theorem inv_sent_send (agenda : List Event) : (sent .send agenda).Inv := by
  constructor <;> simp [sent, idle, State.reset, timed, Config.default, Config.wf]

theorem inv_sent_exchange (agenda : List Event) : (sent .exchange agenda).Inv := by
  constructor <;> simp [sent, idle, State.reset, timed, Config.default, Config.wf]

theorem inv_expect_stx (agenda : List Event) : (reading (some 2) .expectStx [] agenda).Inv := by
  constructor <;> simp [reading, idle, State.reset, timed, Config.default, Config.wf]

/-- The accumulator is exactly at its bound. -/
theorem inv_body (agenda : List Event) : (reading (some 2) .body [0x02, 0x41] agenda).Inv := by
  constructor
  case bodyShape => exact fun _ => ⟨[0x41], rfl, by decide⟩
  all_goals simp [reading, idle, State.reset, timed, Config.default, Config.wf]

theorem inv_expect_chk (agenda : List Event) : (reading (some 3) .expectChk [0x02, 0x41, 0x03] agenda).Inv := by
  constructor
  case chkShape => exact fun _ => ⟨[0x41], rfl, by decide⟩
  all_goals simp [reading, idle, State.reset, timed, Config.default, Config.wf]

theorem inv_validated (agenda : List Event) : (posted okResult agenda).Inv := by
  constructor <;> simp [posted, okResult, idle, State.reset, timed, Config.default, Config.wf]

theorem inv_failed (agenda : List Event) : (posted timeoutResult agenda).Inv := by
  constructor <;> simp [posted, timeoutResult, idle, State.reset, timed, Config.default, Config.wf]

theorem bounded_idle (agenda : List Event) : (idle agenda).Bounded := by
  constructor <;> simp [idle, State.reset, timed, Config.default, Result.initial]

theorem bounded_sent (agenda : List Event) : (sent .send agenda).Bounded := by
  constructor <;> simp [sent, idle, State.reset, timed, Config.default, Result.initial]

/-! ## Witnesses -/

theorem witness_DecodeInvertsEncode :
    wellFormed (.reservedOp 7 31 0xFF [0xFF]) = true ∧ wellFormed (.encode 0xFF (List.replicate 65535 0)) = true := by
  refine ⟨by decide, test_wf_encode_longest⟩

theorem witness_EncodeInvertsDecode :
    decode (.request 0x00034403#32 [0x02, 0x41, 0x03]) = .ok (.decode 0x44 [0x02, 0x41, 0x03]) := by decide

theorem witness_StepRunsTheDecodedInstruction :
    (idle [.host .takeStep, .txDone]).agenda = .host .takeStep :: [.txDone] ∧ decode .takeStep = .ok .take ∧
    wellFormed .take = true := by decide

theorem witness_StepWaitsOrRefusesWithoutAnInstruction :
    (idle []).agenda = [] ∧
    (idle [.host (.frame [0x02])]).agenda = .host (.frame [0x02]) :: [] ∧
    decode (.frame [0x02]) = .error .notACommandFrame := by decide

theorem witness_HeldRequestRunsAsPresented :
    ({ idle [.acceptHeld 1] with held := [⟨4, 0, 0, []⟩, ⟨1, 0, 0x4B, [0x1C]⟩] } : State).held[1]? =
      some ⟨1, 0, 0x4B, [0x1C]⟩ ∧
    requestOf (.keyPress 0x1C) = some ⟨1, 0, 0x4B, [0x1C]⟩ ∧ wellFormed (.keyPress 0x1C) = true ∧
    (idle [.acceptHeld 1]).seq = .idle := by decide

theorem witness_ChecksumLaws : [(1 : Byte), 2].Perm [2, 1] ∧ (0 : Byte) ≠ 255 := by decide

theorem witness_OutboundFrameLayout :
    0 < [(0x1C : Byte)].length ∧
    (sent .send [.txDone]).agenda = .txDone :: [] ∧ (sent .send [.txDone]).seq = .sent ∧
    (sent .send [.txDone]).curFrame = encodeFrame 0x41 [] := by decide

theorem witness_DecodeAcceptsExactlyTheFramedPayload :
    decodeFrame [0x02, 0x41, 0x03] 0x44 = .ok [0x41] 0x44 ∧
    decodeFrame ((encodeFrame 0x41 [0x01]).take 4) 0x45 = .ok [0x41, 0x01] 0x45 := by decide

theorem witness_DecodeReportsTheFirstFailingCheck :
    ([] : List Byte).head? ≠ some STX ∧ ([0x41, 0x03] : List Byte).head? ≠ some STX ∧
    ([0x02, 0x41] : List Byte) = STX :: [0x41] ∧ ETX ∉ [(0x41 : Byte)] ∧
    ([0x02, 0x03, 0x03] : List Byte) = STX :: ([] ++ ETX :: [0x03]) ∧ [(0x03 : Byte)] ≠ [] ∧
    ([0x02, 0x41, 0x03] : List Byte) = STX :: ([0x41] ++ [ETX]) ∧ (0x45 : Byte) ≠ checksum ([0x41] ++ [ETX]) := by decide

theorem witness_DecodeOfAnEncodedFrame :
    (encodeFrame 0x41 [0x01])[[(0x01 : Byte)].length + 3]? = some 0x45 ∧ (0x41 : Byte) ≠ ETX ∧ ETX ∉ [(0x01 : Byte)] ∧
    (encodeFrame 0x41 [0x03])[[(0x03 : Byte)].length + 3]? = some 0x47 ∧ ETX ∈ [(0x03 : Byte)] ∧
    (encodeFrame 0x03 [])[([] : List Byte).length + 3]? = some 0x06 := by decide

/-- For EncodePostsTheFrame, SendAndExchangeStartTheWrite, CommandRowsStartTheirFrames. -/
theorem witness_a_state_in_idle : (idle []).seq = .idle := by decide

theorem witness_DecodePostsTheVerdict :
    (idle []).seq = .idle ∧ decodeFrame [0x02, 0x41, 0x03] 0x44 = .ok [0x41] 0x44 ∧
    decodeFrame [0x02, 0x41, 0x03] 0x45 = .mismatch 0x45 0x44 ∧ decodeFrame [] 0 = .noStx ∧
    decodeFrame [0x02] 0 = .noEtx ∧ decodeFrame [0x02, 0x03, 0x03] 0x06 = .trailing := by decide

theorem witness_IllegalRequestIsRejected :
    wellFormed (.reservedOp 4 0 0 []) = true ∧ wellFormed (.reservedOp 7 31 0xFF [1]) = true ∧
    wellFormed (.reservedOp 0 1 0 []) = true ∧ (idle []).seq = .idle := by decide

theorem witness_RequestOutsideIdleIsHeld :
    requestOf .tune = some ⟨1, 0, 0x54, [0, 0, 0, 0, 0]⟩ ∧ (sent .send []).seq ≠ .idle ∧
    (posted okResult []).seq ≠ .idle := by decide

theorem witness_RequestsCarryTheirOperands :
    wellFormed (.decode 0x44 [0x02]) = true ∧ requestOf (.decode 0x44 [0x02]) = some ⟨3, 0, 0x44, [0x02]⟩ ∧
    encode (.decode 0x44 [0x02]) = .request 0x00014403#32 [0x02] ∧
    requestOf (.keyPress 9) = some ⟨1, 0, 0x4B, [9]⟩ ∧ encode (.keyPress 9) = .frame [0x02, 0x4B, 9, 0x03, 0x57] := by
  decide

theorem witness_TakeDeliversTheResult :
    (posted okResult []).seq = .validated ∧ (posted timeoutResult []).seq = .failed := by decide

theorem witness_TakeIsNotEnabledWithoutAResult :
    (idle []).seq ≠ .validated ∧ (idle []).seq ≠ .failed ∧ (sent .send []).seq ≠ .validated ∧
    (sent .send []).seq ≠ .failed := by decide

theorem witness_ResetRestoresTheBlock :
    0 ≤ (sent .send []).curFrame.length ∧ 4 ≤ (sent .send []).curFrame.length ∧ 0 ≤ (idle []).curFrame.length := by
  decide

theorem witness_PresentingARequestLeavesTheLineAlone :
    requestOf (.encode 0x41 []) = some ⟨0, 0, 0x41, []⟩ ∧
    (∃ t, exec (.encode 0x41 []) (idle []) = .next t) ∧
    requestOf (.reservedOp 1 1 0 []) = some ⟨1, 1, 0, []⟩ ∧ ∃ t, exec (.reservedOp 1 1 0 []) (idle []) = .next t := by
  exact ⟨by decide, ⟨_, rfl⟩, by decide, ⟨_, rfl⟩⟩

theorem witness_CompletedWrite :
    (sent .send [.txDone]).agenda = .txDone :: [] ∧ (sent .send [.txDone]).seq = .sent ∧
    (sent .send [.txDone]).curOp = some .send ∧ (sent .exchange [.txDone]).curOp ≠ some .send := by decide

/-- The boundaries: no byte, and the whole frame. -/
theorem witness_FailedWrite :
    (sent .send [.txFail 0]).agenda = .txFail 0 :: [] ∧ (sent .send [.txFail 4]).agenda = .txFail 4 :: [] ∧
    (sent .send [.txFail 4]).seq = .sent ∧ 4 ≤ (sent .send [.txFail 4]).curFrame.length := by decide

theorem witness_FirstByteMustBeStx :
    (reading none .expectStx [] [.answer (.byte 0x02)]).agenda = .answer (.byte 0x02) :: [] ∧
    (reading none .expectStx [] [.answer (.byte 0x03)]).agenda = .answer (.byte 0x03) :: [] ∧
    (reading none .expectStx [] [.answer (.byte 0x03)]).rx = .expectStx ∧ (0x03 : Byte) ≠ STX := by decide

/-- At the bound, one below it, and without a bound. -/
theorem witness_BodyByteUpToTheBound :
    let s := reading (some 2) .body [0x02, 0x41] [.answer (.byte 0x03)]
    let t := reading (some 3) .body [0x02, 0x41] [.answer (.byte 0x03)]
    let u := reading none .body [0x02, 0x41] [.answer (.byte 0x42)]
    (s.rx = .body ∧ ∀ n, s.config.maxFrame = some n → n ≤ s.acc.length) ∧
    (t.rx = .body ∧ ∀ n, t.config.maxFrame = some n → t.acc.length < n) ∧
    (u.rx = .body ∧ ∀ n, u.config.maxFrame = some n → u.acc.length < n) := by
  simp [reading]

theorem witness_ChecksumByteIsValidated :
    let s := reading none .expectChk [0x02, 0x41, 0x03] [.answer (.byte 0x44)]
    s.agenda = .answer (.byte 0x44) :: [] ∧ s.rx = .expectChk ∧ s.acc = STX :: ([0x41] ++ [ETX]) ∧ ETX ∉ [(0x41 : Byte)] ∧
    (0x44 : Byte) = checksum ([0x41] ++ [ETX]) ∧ (0x03 : Byte) ≠ checksum ([0x41] ++ [ETX]) := by decide

theorem witness_TimeoutAndReadFailure :
    let s := reading none .expectStx [] [.answer .timeout]
    let t := reading none .expectChk [0x02, 0x03] [.answer .ioFail]
    s.rx ≠ .off ∧ s.agenda = .answer .timeout :: [] ∧ s.config.readTimeout ≠ none ∧
    t.rx ≠ .off ∧ t.agenda = .answer .ioFail :: [] := by decide

theorem witness_LineStepsNotEnabledElsewhere :
    ((idle [.answer (.byte 0)]).agenda = .answer (.byte 0) :: [] ∧ (idle [.answer (.byte 0)]).rx = .off) ∧
    (State.reset.config.readTimeout = none) ∧
    ((idle [.txDone]).agenda = .txDone :: [] ∧ (idle [.txDone]).seq ≠ .sent) ∧
    ((idle [.txFail 0]).agenda = .txFail 0 :: [] ∧ (idle [.txFail 0]).seq ≠ .sent) ∧
    ((sent .send [.acceptHeld 0]).agenda = .acceptHeld 0 :: [] ∧ (sent .send [.acceptHeld 0]).seq ≠ .idle) := by decide

/-- A good state whose step answers next: for EveryStepKeepsTheInvariants, HistoriesOnlyGrow (both histories),
ConfigurationNeverChanges, FramerNeverHandsOverABadFrame. -/
theorem witness_EveryStepKeepsTheInvariants :
    (∃ t, (sent .send [.txDone]).Inv ∧ step (sent .send [.txDone]) = .next t ∧ t.lineOut ≠ []) ∧
    (∃ t, (reading (some 3) .expectChk [0x02, 0x41, 0x03] [.answer (.byte 0x44)]).Inv ∧
      step (reading (some 3) .expectChk [0x02, 0x41, 0x03] [.answer (.byte 0x44)]) = .next t ∧ t.lineIn ≠ []) := by
  exact ⟨⟨_, inv_sent_send _, rfl, by decide⟩, ⟨_, inv_expect_chk _, rfl, by decide⟩⟩

theorem witness_EveryStepKeepsTheCapacities :
    ∃ t, (sent .send [.txDone]).Inv ∧ (sent .send [.txDone]).Bounded ∧
      step (sent .send [.txDone]) = .next t := by
  exact ⟨_, inv_sent_send _, bounded_sent _, rfl⟩

/-- From IDLE into SENT, and waiting in SENT. -/
theorem witness_WaitingFrameIsEncoded :
    (∃ t, (idle [.host (.request 0x00004101#32 [])]).Inv ∧ (idle [.host (.request 0x00004101#32 [])]).seq ≠ .sent ∧
      step (idle [.host (.request 0x00004101#32 [])]) = .next t ∧ t.seq = .sent) ∧
    (∃ t, (sent .send []).Inv ∧ (sent .send []).curFrame = encodeFrame (sent .send []).curCmd [] ∧
      step (sent .send []) = .next t ∧ t.seq = .sent) := by
  exact ⟨⟨_, inv_idle _, by decide, rfl, by decide⟩, ⟨_, inv_sent_send _, by decide, rfl, by decide⟩⟩

theorem witness_SequencerMovesOnlyAsTabulated :
    ∃ t, (sent .exchange [.txDone]).Inv ∧ step (sent .exchange [.txDone]) = .next t ∧
      t.seq ≠ (sent .exchange [.txDone]).seq := by
  exact ⟨_, inv_sent_exchange _, rfl, by decide⟩

/-- Arming; disarming with a result; reset while reading. -/
theorem witness_ReceiverArmedOnlyByAnExchangeWrite :
    (∃ t, (sent .exchange [.txDone]).Inv ∧ step (sent .exchange [.txDone]) = .next t ∧
      (sent .exchange [.txDone]).rx = .off ∧ t.rx ≠ .off) ∧
    (∃ t, (reading (some 2) .expectStx [] [.answer (.byte 0)]).Inv ∧
      step (reading (some 2) .expectStx [] [.answer (.byte 0)]) = .next t ∧
      (reading (some 2) .expectStx [] [.answer (.byte 0)]).rx ≠ .off ∧ t.seq = .failed) ∧
    (∃ t, (reading (some 2) .body [0x02, 0x41] [.host (.resetInput 0)]).Inv ∧
      step (reading (some 2) .body [0x02, 0x41] [.host (.resetInput 0)]) = .next t) := by
  exact ⟨⟨_, inv_sent_exchange _, rfl, by decide, by decide⟩, ⟨_, inv_expect_stx _, rfl, by decide, by decide⟩,
    ⟨_, inv_body _, rfl⟩⟩

/-- A reset; a post that marks the line; one that does not. -/
theorem witness_ResyncIsMarkedExactlyByLineErrors :
    (∃ t, (posted timeoutResult [.host (.resetInput 0)]).Inv ∧
      step (posted timeoutResult [.host (.resetInput 0)]) = .next t) ∧
    (∃ t, (reading (some 2) .body [0x02, 0x41] [.answer (.byte 0x03)]).Inv ∧
      step (reading (some 2) .body [0x02, 0x41] [.answer (.byte 0x03)]) = .next t ∧ t.resyncNeeded = true) ∧
    (∃ t, (reading (some 3) .expectChk [0x02, 0x41, 0x03] [.answer (.byte 0)]).Inv ∧
      step (reading (some 3) .expectChk [0x02, 0x41, 0x03] [.answer (.byte 0)]) = .next t ∧
      t.seq = .failed ∧ t.resyncNeeded = false) := by
  exact ⟨⟨_, inv_failed _, rfl⟩, ⟨_, inv_body _, rfl, by decide⟩, ⟨_, inv_expect_chk _, rfl, by decide, by decide⟩⟩

/-- The result waits; it is taken; it is discarded by reset. -/
theorem witness_PostedResultIsNotOverwritten :
    (∃ t, (posted okResult []).Inv ∧ (posted okResult []).seq = .validated ∧ step (posted okResult []) = .next t) ∧
    (∃ t, (posted okResult [.host .takeStep]).Inv ∧ step (posted okResult [.host .takeStep]) = .next t) ∧
    (∃ t, (posted timeoutResult [.host (.resetInput 0)]).Inv ∧
      (posted timeoutResult [.host (.resetInput 0)]).seq = .failed ∧
      step (posted timeoutResult [.host (.resetInput 0)]) = .next t) := by
  exact ⟨⟨_, inv_validated _, by decide, rfl⟩, ⟨_, inv_validated _, rfl⟩, ⟨_, inv_failed _, by decide, rfl⟩⟩

theorem witness_DeliveredErrorsCarryNoPayload :
    ∃ t, (posted timeoutResult [.host .takeStep]).Inv ∧ step (posted timeoutResult [.host .takeStep]) = .next t ∧
      (posted timeoutResult [.host .takeStep]).res.kind ≠ .unknownKey ∧ (posted timeoutResult [.host .takeStep]).taken = [] ∧
      t.taken ≠ [] := by
  exact ⟨_, inv_failed _, rfl, by decide, by decide, by decide⟩

theorem witness_SendNeverReadsTheLine :
    ∃ t, (sent .send [.txDone]).Inv ∧ (sent .send [.txDone]).curOp = some .send ∧ step (sent .send [.txDone]) = .next t := by
  exact ⟨_, inv_sent_send _, by decide, rfl⟩

/-- A script that ends with a result, and one that leaves the framer waiting. -/
theorem witness_FramerAgreesWithRecv :
    let s := reading (some 3) .expectStx [] (([.byte 0x02, .timeout] : List ReadAnswer).map .answer ++ [])
    let t := reading (some 3) .expectStx [] (([.byte 0x02] : List ReadAnswer).map .answer ++ [.txDone])
    (s.seq = .awaitingFrame ∧ s.rx = .expectStx ∧ s.acc = [] ∧ s.config.readTimeout ≠ none ∧
      recv s.config.maxFrame [.byte 0x02, .timeout] = some (timeoutResult, 2)) ∧
    (t.seq = .awaitingFrame ∧ t.rx = .expectStx ∧ t.acc = [] ∧ t.config.readTimeout ≠ none ∧
      recv t.config.maxFrame [.byte 0x02] = none) := by decide

theorem witness_ExchangeAgreesWithExch :
    let s := idle (.host (encode (.exchange 0x41 [])) :: .txDone ::
      (([.byte 0x03] : List ReadAnswer).map .answer ++ []))
    let t := idle (.host (encode (.exchange 0x41 [])) :: .txFail 4 :: (([] : List ReadAnswer).map .answer ++ []))
    (s.seq = .idle ∧ s.rx = .off ∧ s.acc = [] ∧ s.curFrame = [] ∧ ([] : List Byte).length < 65536 ∧
      exchangeOutcome s.config.maxFrame 0x41 [] .done [.byte 0x03] =
        some ⟨⟨.framingNoStx, 0, 0, []⟩, [0x02, 0x41, 0x03, 0x44], 1⟩) ∧
    (t.seq = .idle ∧ t.rx = .off ∧ t.acc = [] ∧ t.curFrame = [] ∧ 4 ≤ ([] : List Byte).length + 4 ∧
      exchangeOutcome t.config.maxFrame 0x41 [] (.fail 4) [] =
        some ⟨⟨.ioError, 0, 0, []⟩, [0x02, 0x41, 0x03, 0x44], 0⟩) := by decide

theorem witness_SendEndsWithItsWrite :
    let s := idle [.host (encode (.send 0x41 [])), .txDone]
    let t := idle [.host (encode (.send 0x41 [])), .txFail 4]
    (s.seq = .idle ∧ s.curFrame = [] ∧ s.agenda = .host (encode (.send 0x41 [])) :: .txDone :: []) ∧
    (t.seq = .idle ∧ t.curFrame = [] ∧ 4 ≤ ([] : List Byte).length + 4 ∧
      t.agenda = .host (encode (.send 0x41 [])) :: .txFail 4 :: []) := by decide

theorem witness_ReceiveUsesAsManyBytesAsItsOutcomeSays :
    (∀ n ∈ some 2, 2 ≤ n) ∧ recv (some 2) [.byte 0x02, .byte 0x03, .byte 0x03] = some (⟨.ok, 3, 3, []⟩, 3) ∧
    recv (some 2) [.byte 0x03] = some (⟨.framingNoStx, 0, 0, []⟩, 1) ∧
    recv (some 2) [.byte 0x02, .byte 0x41, .byte 0x03] = some (⟨.framingTooLong, 0, 0, []⟩, 3) ∧
    recv (some 2) [.byte 0x02, .timeout] = some (⟨.timeout, 0, 0, []⟩, 2) ∧
    recv (some 2) [.ioFail] = some (⟨.ioError, 0, 0, []⟩, 1) := by decide

/-- Two states that differ in the resync bit and both histories: a step, a fault, a refusal. -/
theorem witness_OutcomesDoNotDependOnTheHistory :
    (idle []).Inv ∧ ({ idle [] with resyncNeeded := true, lineIn := [0x99] } : State).Inv ∧
    (∀ agenda, (idle agenda).Similar { idle agenda with resyncNeeded := true, lineIn := [0x99], lineOut := [0x02] }) ∧
    (∃ t, step (idle [.host (encode .tune)]) = .next t) ∧
    step (idle [.txDone]) = .fault .writeNotEnabled ∧
    step (idle [.host (.frame [])]) = .refused (.malformedItem .notACommandFrame) := by
  refine ⟨inv_idle _, ?_, fun _ => by constructor <;> rfl, ⟨_, rfl⟩, rfl, rfl⟩
  constructor <;> simp [idle, State.reset, timed, Config.default, Config.wf, Result.initial]

theorem witness_ResultWordFields : ([0x41] : List Byte).length < 2 ^ 32 := by decide

/-- The two keys the source gives, and no other. -/
def sourceKeys : SymbolicKey → Option Byte
  | "ARROW_DOWN" => some 9
  | "NUM_5" => some 28
  | _ => none

theorem witness_PseudoOperationsExpand :
    sourceKeys "NUM_5" = some 28 ∧ sourceKeys "FOO" = none ∧ KeyTableAgrees sourceKeys := by
  refine ⟨by decide, by decide, ?_⟩
  unfold KeyTableAgrees
  decide

theorem witness_HostReportsTheDeliveredResult :
    (Delivery.mk okResult false).result.kind = .ok ∧ (Delivery.mk timeoutResult true).result.kind ≠ .ok := by decide

/-- `02 41 41 41 ...` (95_test_vectors.md L2.4), from a framer that has just been armed without a bound. -/
theorem witness_EndlessWaitsAreRuns :
    let s := reading none .expectStx [] []
    let bytes : Nat → Byte := fun k => if k = 0 then STX else 0x41
    (idle []).agenda = [] ∧ s.agenda = [] ∧ s.rx = .expectStx ∧ s.config.maxFrame = none ∧ bytes 0 = STX ∧
    ∀ k, bytes k ≠ ETX := by
  refine ⟨rfl, rfl, rfl, rfl, rfl, fun k => ?_⟩
  dsimp only
  split <;> decide

/-- The original configuration, a device that sends nothing; and one that sends `41` for ever in RX_BODY. -/
theorem witness_OnlyResetEndsAnEndlessWait :
    let original : Config := { Config.default with maxFrame := none }
    let s := { reading none .expectStx [] [] with config := original }
    let t := fun k => { reading none .body (STX :: List.replicate k 0x41) [] with
      config := original, lineIn := List.replicate k 0x41 }
    (Follows silence (fun _ => s) ∧ s.agenda = [] ∧ s.seq = .awaitingFrame ∧ s.rx ≠ .off ∧
      s.config.maxFrame = none ∧ s.config.readTimeout = none ∧ ∀ k, NeverEndsTheFrame s.rx (silence k)) ∧
    (Follows (byteStream fun _ => 0x41) t ∧ (t 0).agenda = [] ∧ (t 0).seq = .awaitingFrame ∧ (t 0).rx ≠ .off ∧
      (t 0).config.maxFrame = none ∧ (t 0).config.readTimeout = none ∧
      ∀ k, NeverEndsTheFrame (t 0).rx (byteStream (fun _ => 0x41) k)) := by
  refine ⟨⟨fun _ => rfl, rfl, rfl, by decide, rfl, rfl, fun _ => trivial⟩, fun k => ?_, rfl, rfl, by decide, rfl, rfl,
    fun _ => ⟨rfl, (by decide : (0x41 : Byte) ≠ ETX)⟩⟩
  rw [byteStream, environmentStep_some _ rfl]
  simp [runEvent, lineAnswer, lineByte, reading, idle, State.reset, readBody, consume, State.atBound, Machine.atBound,
    timed, Config.default, List.replicate_succ']
  decide

end Sys2Proof.Tests
end

section
/-! SUPPORT. What one step can add to the line histories (10_state.md R29). -/

namespace Sys2Proof.Machine

variable {s t : State}

/-- Event `e` takes `s` to `t`, putting `out` on the line and consuming `inn` from it, each only as R29 allows. -/
structure LineAdds (e : Event) (s t : State) (out inn : List Byte) : Prop where
  lineOut : t.lineOut = s.lineOut ++ out
  lineIn : t.lineIn = s.lineIn ++ inn
  written : out ≠ [] → s.seq = .sent ∧ out <+: s.curFrame ∧
    (e = .txDone ∨ (∃ p, e = .txFail p) ∨ ∃ cut, e = .host (.resetInput cut))
  read : inn ≠ [] → s.rx ≠ .off ∧ ∃ b, e = .answer (.byte b) ∧ inn = [b]

theorem lineAdds_nothing {e : Event} (hout : t.lineOut = s.lineOut) (hin : t.lineIn = s.lineIn) :
    LineAdds e s t [] [] :=
  ⟨by simp [hout], by simp [hin], nofun, nofun⟩

theorem lineAdds_write {e : Event} {out : List Byte} (hs : s.seq = .sent) (hp : out <+: s.curFrame)
    (he : e = .txDone ∨ (∃ p, e = .txFail p) ∨ ∃ cut, e = .host (.resetInput cut))
    (hout : t.lineOut = s.lineOut ++ out) (hin : t.lineIn = s.lineIn) : LineAdds e s t out [] :=
  ⟨hout, by simp [hin], fun _ => ⟨hs, hp, he⟩, nofun⟩

theorem lineAdds_byte {b : Byte} (hr : s.rx ≠ .off) (hout : t.lineOut = s.lineOut)
    (hin : t.lineIn = s.lineIn ++ [b]) : LineAdds (.answer (.byte b)) s t [] [b] :=
  ⟨by simp [hout], hin, nofun, fun _ => ⟨hr, b, rfl, rfl⟩⟩

/-- The first step of an accepted request leaves the line alone. -/
theorem accepts_line {i : Instr} (h : Accepts i s t) : t.lineOut = s.lineOut ∧ t.lineIn = s.lineIn := by
  obtain ⟨op, cmd, data, -, rfl, -⟩ | ⟨cmd, data, -, rfl⟩ | ⟨chk, frame, -, rfl⟩ | ⟨op, rsvd, cmd, bytes, -, rfl⟩ := h
  · exact ⟨rfl, rfl⟩
  · exact ⟨rfl, rfl⟩
  · obtain ⟨kind, received, computed, bytes, h, -⟩ :=
      postDecoded_eq chk (decodeFrame frame chk) (beginOp .decode chk s)
    rw [h]
    exact ⟨rfl, rfl⟩
  · exact ⟨rfl, rfl⟩

theorem exec_lineIn {i : Instr} (h : exec i s = .next t) : t.lineIn = s.lineIn := by
  obtain ⟨r, -, -, rfl⟩ | ⟨-, ha⟩ | ⟨-, -, rfl⟩ | ⟨cut, -, rfl⟩ := exec_cases h
  · rfl
  · exact (accepts_line ha).2
  · rfl
  · rw [clearBlock_lineIn]
    split <;> rfl

/-- Of all instructions only RESET puts bytes on the line, and only those of a frame being written (R144). -/
theorem exec_lineOut {i : Instr} (h : exec i s = .next t) :
    t.lineOut = s.lineOut ∨
      ∃ cut, i = .reset cut ∧ s.seq = .sent ∧ t.lineOut = s.lineOut ++ s.curFrame.take cut := by
  obtain ⟨r, -, -, rfl⟩ | ⟨-, ha⟩ | ⟨-, -, rfl⟩ | ⟨cut, rfl, rfl⟩ := exec_cases h
  · exact .inl rfl
  · exact .inl (accepts_line ha).1
  · exact .inl rfl
  · by_cases hs : s.seq = .sent
    · exact .inr ⟨cut, rfl, hs, by simp [hs]⟩
    · exact .inl (by simp [hs])

/-- A command frame names a request. -/
theorem requestOf_isSome_of_decodeFrameItem {bytes : List Byte} {i : Instr} (h : decodeFrameItem bytes = .ok i) :
    (requestOf i).isSome := by
  unfold decodeFrameItem at h
  split_ifs at h
  · cases h; rfl
  · cases h; rfl
  · cases h; rfl
  · split at h
    · split_ifs at h
      cases h; rfl
    · cases h

/-- Only the Reset input decodes to RESET. -/
theorem eq_resetInput_of_decode {item : HostItem} {cut : Nat} (h : decode item = .ok (.reset cut)) :
    item = .resetInput cut := by
  cases item with
  | frame bytes => cases requestOf_isSome_of_decodeFrameItem h
  | request header bytes =>
    simp only [decode, decodeRequest] at h
    split_ifs at h
    injection h with h
    have hr := h ▸ requestOf_toInstr _
    cases hr
  | takeStep => cases h
  | resetInput c => cases h; rfl

theorem runItem_lineAdds {item : HostItem} (h : runItem item s = .next t) :
    ∃ out inn, LineAdds (.host item) s t out inn := by
  obtain ⟨i, hd, hx⟩ := runItem_cases h
  obtain hout | ⟨cut, rfl, hs, hout⟩ := exec_lineOut hx
  · exact ⟨_, _, lineAdds_nothing hout (exec_lineIn hx)⟩
  · have hi := eq_resetInput_of_decode hd
    exact ⟨_, _, lineAdds_write hs (List.take_prefix ..) (.inr (.inr ⟨cut, by rw [hi]⟩)) hout (exec_lineIn hx)⟩

theorem acceptHeld_lineAdds {n : Nat} (h : acceptHeld n s = .next t) :
    ∃ out inn, LineAdds (.acceptHeld n) s t out inn := by
  obtain ⟨r, -, hs, hx⟩ := acceptHeld_cases h
  have hin := exec_lineIn hx
  obtain hout | ⟨cut, -, hsent, -⟩ := exec_lineOut hx
  · exact ⟨_, _, lineAdds_nothing hout hin⟩
  · cases hs.symm.trans hsent

theorem lineTxDone_lineAdds (h : lineTxDone s = .next t) : ∃ out inn, LineAdds .txDone s t out inn := by
  obtain ⟨hs, ⟨-, rfl⟩ | ⟨-, rfl⟩⟩ := lineTxDone_cases h
  · exact ⟨_, _, lineAdds_write hs List.prefix_rfl (.inl rfl) rfl rfl⟩
  · exact ⟨_, _, lineAdds_write hs List.prefix_rfl (.inl rfl) rfl rfl⟩

theorem lineTxFail_lineAdds {p : Nat} (h : lineTxFail p s = .next t) :
    ∃ out inn, LineAdds (.txFail p) s t out inn := by
  obtain ⟨hs, rfl⟩ := lineTxFail_cases h
  exact ⟨_, _, lineAdds_write hs (List.take_prefix p _) (.inr (.inl ⟨p, rfl⟩)) rfl rfl⟩

/-- A byte that answers a read is consumed in every reading state, whatever its outcome; a timeout or a failure consumes
nothing. -/
theorem lineAnswer_lineAdds {a : ReadAnswer} (h : lineAnswer a s = .next t) :
    ∃ out inn, LineAdds (.answer a) s t out inn := by
  obtain ⟨rfl, hr, rfl⟩ | ⟨b, rfl, -, hr, rfl⟩ | ⟨b, rfl, hr, -, rfl⟩ | ⟨rfl, hr, -, rfl⟩ | ⟨b, rfl, -, hr, -, rfl⟩ |
    ⟨b, _, _, rfl, hr, -, rfl⟩ | ⟨b, _, _, rfl, hr, -, rfl⟩ | ⟨rfl, -, -, rfl⟩ | ⟨rfl, -, rfl⟩ := lineAnswer_cases h
  -- the seven outcomes of a byte, then the timeout and the read failure
  iterate 7 exact ⟨_, _, lineAdds_byte (by simp [hr]) rfl rfl⟩
  iterate 2 exact ⟨_, _, lineAdds_nothing rfl rfl⟩

theorem runEvent_lineAdds {e : Event} (h : runEvent e s = .next t) : ∃ out inn, LineAdds e s t out inn := by
  cases e with
  | host item => exact runItem_lineAdds h
  | acceptHeld n => exact acceptHeld_lineAdds h
  | txDone => exact lineTxDone_lineAdds h
  | txFail p => exact lineTxFail_lineAdds h
  | answer a => exact lineAnswer_lineAdds h

/-- Settles O41: a step that waits adds nothing, and every event adds only what R29 allows. -/
theorem historiesOnlyGrow : Obligations.HistoriesOnlyGrow := by
  intro s t h
  obtain ⟨-, rfl⟩ | ⟨e, rest, ha, he⟩ := step_cases h
  · exact ⟨[], [], by simp, by simp, nofun, nofun⟩
  · obtain ⟨out, inn, hadds⟩ := runEvent_lineAdds he
    refine ⟨out, inn, hadds.lineOut, hadds.lineIn, fun hout => ?_, fun hinn => ?_⟩
    · obtain ⟨hs, ⟨more, hmore⟩, hev⟩ := hadds.written hout
      exact ⟨hs, ⟨more, hmore.symm⟩, rest, by simpa [ha] using hev⟩
    · obtain ⟨hr, b, rfl, hb⟩ := hadds.read hinn
      exact ⟨hr, b, rest, ha, hb⟩

end Sys2Proof.Machine
end

section
/-! SUPPORT. No operation depends on what came before it (10_state.md R31): from similar states every operation
does the same, faults and refusals included. -/

namespace Sys2Proof.Machine

/-! ## The relation -/

/-- Two histories grow by the same elements. -/
def SameGrowth {α : Type} (xs xs' ys ys' : List α) : Prop :=
  ∃ added, xs' = xs ++ added ∧ ys' = ys ++ added

theorem SameGrowth.refl {α : Type} (xs ys : List α) : SameGrowth xs xs ys ys :=
  ⟨[], by simp, by simp⟩

theorem SameGrowth.append {α : Type} (xs ys added : List α) : SameGrowth xs (xs ++ added) ys (ys ++ added) :=
  ⟨added, rfl, rfl⟩

theorem SameGrowth.trans {α : Type} {xs xs' xs'' ys ys' ys'' : List α} (h : SameGrowth xs xs' ys ys')
    (h' : SameGrowth xs' xs'' ys' ys'') : SameGrowth xs xs'' ys ys'' := by
  obtain ⟨a, rfl, rfl⟩ := h
  obtain ⟨b, rfl, rfl⟩ := h'
  exact ⟨a ++ b, by simp, by simp⟩

/-- The move from `s` to `s'` and the one from `t` to `t'` end similar, with the same bytes put on the line, the same
bytes consumed and the same results delivered. -/
structure SameMove (s t s' t' : State) : Prop where
  similar : s'.Similar t'
  lineOut : SameGrowth s.lineOut s'.lineOut t.lineOut t'.lineOut
  lineIn : SameGrowth s.lineIn s'.lineIn t.lineIn t'.lineIn
  taken : SameGrowth (s.taken.map Delivery.result) (s'.taken.map Delivery.result) (t.taken.map Delivery.result)
    (t'.taken.map Delivery.result)

theorem SameMove.trans {s t s' t' s'' t'' : State} (h : SameMove s t s' t') (h' : SameMove s' t' s'' t'') :
    SameMove s t s'' t'' :=
  ⟨h'.similar, h.lineOut.trans h'.lineOut, h.lineIn.trans h'.lineIn, h.taken.trans h'.taken⟩

/-- Two answers are both a next state, by the same move, or the same fault, or the same refusal. -/
inductive SameAnswer (s t : State) : Answer → Answer → Prop
  | next {s' t' : State} : SameMove s t s' t' → SameAnswer s t (.next s') (.next t')
  | fault (f : Fault) : SameAnswer s t (.fault f) (.fault f)
  | refused (r : Refusal) : SameAnswer s t (.refused r) (.refused r)

theorem SameAnswer.after {s t s' t' : State} {a b : Answer} (h : SameAnswer s' t' a b) (hm : SameMove s t s' t') :
    SameAnswer s t a b := by
  cases h with
  | next h => exact .next (hm.trans h)
  | fault f => exact .fault f
  | refused r => exact .refused r

theorem SameAnswer.exists_next {s t s' : State} {b : Answer} (h : SameAnswer s t (.next s') b) :
    ∃ t', b = .next t' ∧ SameMove s t s' t' := by
  cases h with
  | next hm => exact ⟨_, rfl, hm⟩

theorem SameAnswer.eq_fault {s t : State} {f : Fault} {b : Answer} (h : SameAnswer s t (.fault f) b) :
    b = .fault f := by
  cases h
  rfl

theorem SameAnswer.eq_refused {s t : State} {r : Refusal} {b : Answer} (h : SameAnswer s t (.refused r) b) :
    b = .refused r := by
  cases h
  rfl

/-- An operation that makes the same move from similar states. -/
def Blind (f : State → State) : Prop :=
  ∀ ⦃s t : State⦄, s.Similar t → SameMove s t (f s) (f t)

/-- An operation that gives the same answer in similar states. -/
def BlindAnswer (f : State → Answer) : Prop :=
  ∀ ⦃s t : State⦄, s.Similar t → SameAnswer s t (f s) (f t)

theorem Blind.comp {f g : State → State} (hg : Blind g) (hf : Blind f) : Blind fun s => g (f s) :=
  fun _ _ h => (hf h).trans (hg (hf h).similar)

theorem Blind.next {f : State → State} (hf : Blind f) : BlindAnswer fun s => .next (f s) :=
  fun _ _ h => .next (hf h)

theorem BlindAnswer.comp {f : State → State} {g : State → Answer} (hg : BlindAnswer g) (hf : Blind f) :
    BlindAnswer fun s => g (f s) :=
  fun _ _ h => (hg (hf h).similar).after (hf h)

/-! ## The shared operations -/

theorem blind_id : Blind fun s => s :=
  fun _ _ h => ⟨h, .refl _ _, .refl _ _, .refl _ _⟩

theorem blind_post (kind : Kind) (received computed : Byte) (bytes : List Byte) :
    Blind (post kind received computed bytes) :=
  fun _ _ h => ⟨{ h with seq := rfl, res := rfl }, .refl _ _, .refl _ _, .refl _ _⟩

theorem blind_raiseLineError (kind : Kind) : Blind (raiseLineError kind) :=
  fun _ _ h => ⟨{ h with seq := rfl, res := rfl }, .refl _ _, .refl _ _, .refl _ _⟩

/-- The delivered result is the same; the delivered resync bit may differ. -/
theorem blind_deliver : Blind deliver :=
  fun s t h => ⟨{ h with }, .refl _ _, .refl _ _, [s.res], by simp, by simp [h.res]⟩

theorem blind_retire : Blind retire :=
  fun _ _ h => ⟨{ h with seq := rfl, curOp := rfl, curCmd := rfl, res := rfl }, .refl _ _, .refl _ _, .refl _ _⟩

theorem blind_hold (r : Request) : Blind (hold r) :=
  fun _ _ h => ⟨{ h with held := congrArg (· ++ [r]) h.held }, .refl _ _, .refl _ _, .refl _ _⟩

theorem blind_beginOp (op : HostOp) (cmd : Byte) : Blind (beginOp op cmd) :=
  fun _ _ h => ⟨{ h with curOp := rfl, curCmd := rfl }, .refl _ _, .refl _ _, .refl _ _⟩

theorem blind_startWrite (op : HostOp) (cmd : Byte) (data : List Byte) : Blind (startWrite op cmd data) :=
  fun _ _ h => ⟨{ h with seq := rfl, curOp := rfl, curCmd := rfl, curFrame := rfl }, .refl _ _, .refl _ _, .refl _ _⟩

theorem blind_postDecoded (k : Byte) (r : DecodeResult) : Blind (postDecoded k r) := by
  cases r <;> exact blind_post ..

theorem blind_reject : Blind reject :=
  fun _ _ h => ⟨{ h with seq := rfl, curOp := rfl, res := rfl }, .refl _ _, .refl _ _, .refl _ _⟩

theorem blind_lineWrite (bytes : List Byte) : Blind (lineWrite bytes) :=
  fun _ _ h => ⟨{ h with curFrame := rfl }, .append _ _ _, .refl _ _, .refl _ _⟩

theorem blind_consume (b : Byte) : Blind (consume b) :=
  fun _ _ h => ⟨{ h with }, .refl _ _, .append _ _ _, .refl _ _⟩

theorem blind_arm : Blind arm :=
  fun _ _ h => ⟨{ h with seq := rfl, rx := rfl, acc := rfl }, .refl _ _, .refl _ _, .refl _ _⟩

theorem blind_disarm : Blind disarm :=
  fun _ _ h => ⟨{ h with rx := rfl, acc := rfl }, .refl _ _, .refl _ _, .refl _ _⟩

theorem blind_framerError (kind : Kind) : Blind (framerError kind) :=
  (blind_raiseLineError kind).comp blind_disarm

theorem blind_clearBlock : Blind clearBlock :=
  fun _ _ h =>
    ⟨⟨rfl, rfl, rfl, rfl, rfl, rfl, rfl, h.config, h.held, h.agenda⟩, .refl _ _, .refl _ _, .refl _ _⟩

/-! ## The instructions -/

theorem blind_submit (r : Request) {accepted : State → State} (ha : Blind accepted) :
    BlindAnswer (submit r accepted) := by
  intro s t h
  by_cases hs : t.seq = .idle
  · rw [submit_idle _ _ hs, submit_idle _ _ (h.seq.trans hs)]
    exact .next (ha h)
  · rw [submit_busy _ _ hs, submit_busy _ _ (h.seq ▸ hs)]
    exact .next (blind_hold r h)

theorem blind_execTake : BlindAnswer execTake := by
  intro s t h
  rw [execTake, execTake, h.seq]
  split
  · exact .next (blind_retire.comp blind_deliver h)
  · exact .fault _

theorem blind_execReset (cut : Nat) : BlindAnswer (execReset cut) := by
  refine (blind_clearBlock.comp fun s t h => ?_).next
  rw [h.seq, h.curFrame]
  split
  · exact blind_lineWrite _ h
  · exact blind_id h

theorem blind_exec (i : Instr) : BlindAnswer (exec i) := by
  cases i with
  | encode cmd data => exact blind_submit _ ((blind_post ..).comp (blind_beginOp ..))
  | decode chk frame => exact blind_submit _ ((blind_postDecoded ..).comp (blind_beginOp ..))
  | reservedOp op rsvd cmd bytes => exact blind_submit _ blind_reject
  | take => exact blind_execTake
  | reset cut => exact blind_execReset cut
  | _ => exact blind_submit _ (blind_startWrite ..)

/-! ## The line -/

theorem blind_lineTxDone : BlindAnswer lineTxDone := by
  intro s t h
  rw [lineTxDone, lineTxDone, h.seq, h.curFrame]
  split
  · refine .next (Blind.comp (f := lineWrite t.curFrame) (fun s t h => ?_) (blind_lineWrite _) h)
    rw [afterWrite, afterWrite, h.curOp]
    split
    · exact blind_post _ _ _ _ h
    · exact blind_arm h
  · exact .fault _

theorem blind_lineTxFail (p : Nat) : BlindAnswer (lineTxFail p) := by
  intro s t h
  rw [lineTxFail, lineTxFail, h.seq, h.curFrame]
  split
  · exact .next ((blind_raiseLineError _).comp (blind_lineWrite _) h)
  · exact .fault _

theorem blind_readStx (b : Byte) : Blind (readStx b) := by
  intro s t h
  unfold readStx
  split
  · exact ⟨{ h with acc := rfl, rx := rfl }, .refl _ _, .refl _ _, .refl _ _⟩
  · exact blind_framerError _ h

theorem atBound_eq_of_similar {s t : State} (h : s.Similar t) : s.atBound = t.atBound := by
  rw [State.atBound, State.atBound, h.config, h.acc]

theorem blind_readBody (b : Byte) : Blind (readBody b) := by
  intro s t h
  rw [readBody, readBody, atBound_eq_of_similar h, h.acc, h.rx]
  split
  · exact blind_framerError _ h
  · exact ⟨{ h with acc := rfl, rx := rfl }, .refl _ _, .refl _ _, .refl _ _⟩

theorem blind_readChk (b : Byte) : BlindAnswer (readChk b) := by
  intro s t h
  rw [readChk, readChk, h.acc]
  cases decodeFrame t.acc b with
  | ok payload computed => exact .next ((blind_post ..).comp blind_disarm h)
  | mismatch received computed => exact .next ((blind_post ..).comp blind_disarm h)
  | noStx => exact .fault _
  | noEtx => exact .fault _
  | trailing => exact .fault _

theorem blind_lineByte (b : Byte) : BlindAnswer (lineByte b) := by
  intro s t h
  rw [lineByte, lineByte, h.rx]
  cases t.rx with
  | off => exact .fault _
  | expectStx => exact .next ((blind_readStx b).comp (blind_consume b) h)
  | body => exact .next ((blind_readBody b).comp (blind_consume b) h)
  | expectChk => exact (blind_readChk b).comp (blind_consume b) h

theorem blind_lineTimeout : BlindAnswer lineTimeout := by
  intro s t h
  rw [lineTimeout, lineTimeout, h.rx, h.config]
  split
  · exact .next (blind_framerError _ h)
  · exact .fault _

theorem blind_lineIoFail : BlindAnswer lineIoFail := by
  intro s t h
  rw [lineIoFail, lineIoFail, h.rx]
  split
  · exact .next (blind_framerError _ h)
  · exact .fault _

theorem blind_lineAnswer (a : ReadAnswer) : BlindAnswer (lineAnswer a) := by
  cases a with
  | byte b => exact blind_lineByte b
  | timeout => exact blind_lineTimeout
  | ioFail => exact blind_lineIoFail

/-! ## Events and steps -/

theorem blind_runItem (item : HostItem) : BlindAnswer (runItem item) := by
  intro s t h
  unfold runItem
  cases decode item with
  | ok i => exact blind_exec i h
  | error e => exact .refused _

theorem blind_eraseHeld (n : Nat) : Blind fun s => { s with held := s.held.eraseIdx n } :=
  fun _ _ h => ⟨{ h with held := congrArg (List.eraseIdx · n) h.held }, .refl _ _, .refl _ _, .refl _ _⟩

theorem blind_acceptHeld (n : Nat) : BlindAnswer (acceptHeld n) := by
  intro s t h
  have hget : s.held[n]? = t.held[n]? := by rw [h.held]
  unfold acceptHeld
  rw [hget]
  cases t.held[n]? with
  | none => exact .fault _
  | some r =>
    dsimp only
    by_cases hs : t.seq = .idle
    · rw [if_pos (h.seq.trans hs), if_pos hs]
      exact (blind_exec r.toInstr).comp (blind_eraseHeld n) h
    · rw [if_neg (h.seq ▸ hs), if_neg hs]
      exact .fault _

theorem blind_runEvent (e : Event) : BlindAnswer (runEvent e) := by
  cases e with
  | host item => exact blind_runItem item
  | acceptHeld n => exact blind_acceptHeld n
  | txDone => exact blind_lineTxDone
  | txFail p => exact blind_lineTxFail p
  | answer a => exact blind_lineAnswer a

theorem blind_setAgenda (rest : List Event) : Blind fun s => { s with agenda := rest } :=
  fun _ _ h => ⟨{ h with agenda := rfl }, .refl _ _, .refl _ _, .refl _ _⟩

theorem blind_step : BlindAnswer step := by
  intro s t h
  cases ha : t.agenda with
  | nil =>
    rw [step_nil ha, step_nil (h.agenda.trans ha)]
    exact .next (blind_id h)
  | cons e rest =>
    rw [step_cons ha, step_cons (h.agenda.trans ha)]
    exact (blind_runEvent e).comp (blind_setAgenda rest) h

/-! ## Good states in IDLE -/

theorem State.Inv.rx_of_idle {s : State} (hi : s.Inv) (hs : s.seq = .idle) : s.rx = .off := by
  by_contra hr
  cases hs.symm.trans (hi.readingIff.mp hr)

theorem State.Inv.curFrame_of_idle {s : State} (hi : s.Inv) (hs : s.seq = .idle) : s.curFrame = [] := by
  by_contra hf
  cases hs.symm.trans (hi.sentIff.mpr hf)

/-- In IDLE the invariants leave open only the configuration, what is the environment's, the resync bit and the
histories. -/
theorem similar_of_idle {s t : State} (hi : s.Inv) (hj : t.Inv) (hs : s.seq = .idle) (ht : t.seq = .idle)
    (hc : s.config = t.config) (hh : s.held = t.held) (ha : s.agenda = t.agenda) : s.Similar t := by
  have hrs := hi.rx_of_idle hs
  have hrt := hj.rx_of_idle ht
  obtain ⟨hos, hms, hres⟩ := hi.idleClean hs
  obtain ⟨hot, hmt, hret⟩ := hj.idleClean ht
  exact
    { seq := hs.trans ht.symm
      rx := hrs.trans hrt.symm
      acc := (hi.offEmpty hrs).trans (hj.offEmpty hrt).symm
      curOp := hos.trans hot.symm
      curCmd := hms.trans hmt.symm
      curFrame := (hi.curFrame_of_idle hs).trans (hj.curFrame_of_idle ht).symm
      res := hres.trans hret.symm
      config := hc
      held := hh
      agenda := ha }

/-- Settles O52: IDLE states agree by the invariants, and every step is blind to the resync bit and the histories. -/
theorem outcomesDoNotDependOnTheHistory : Obligations.OutcomesDoNotDependOnTheHistory := by
  refine ⟨fun s t => similar_of_idle, fun s t h => ⟨fun s' hs => ?_, fun f hs => ?_, fun r hs => ?_⟩⟩
  · obtain ⟨t', ht, hsim, ⟨out, hout, hout'⟩, ⟨inn, hinn, hinn'⟩, ⟨taken, htaken, htaken'⟩⟩ :=
      (hs ▸ blind_step h).exists_next
    exact ⟨t', out, inn, taken, ht, hsim, hout, hout', hinn, hinn', htaken, htaken'⟩
  · exact (hs ▸ blind_step h).eq_fault
  · exact (hs ▸ blind_step h).eq_refused

end Sys2Proof.Machine
end

section
/-! SUPPORT. The layout of an outbound frame (30_encoding.md R53, R54) and what a completed write puts on the line
(R81). -/

namespace Sys2Proof.Machine

/-! ## The frame's bytes -/

theorem byteSum_eq_sum_toNat (bs : List Byte) : byteSum bs = (bs.map BitVec.toNat).sum := by
  induction bs with
  | nil => rfl
  | cons b bs ih => simp [ih]

/-- The frame in the order of R53: STX, the bytes the checksum covers, the checksum. -/
theorem encodeFrame_eq (c : Byte) (d : List Byte) :
    encodeFrame c d = STX :: ([c] ++ d ++ [ETX] ++ [checksum ([c] ++ d ++ [ETX])]) := by
  simp [encodeFrame]

theorem encodeFrame_length (c : Byte) (d : List Byte) : (encodeFrame c d).length = d.length + 4 := by
  simp [encodeFrame]

theorem encodeFrame_getElem?_stx (c : Byte) (d : List Byte) : (encodeFrame c d)[0]? = some STX := rfl

theorem encodeFrame_getElem?_cmd (c : Byte) (d : List Byte) : (encodeFrame c d)[1]? = some c := rfl

theorem encodeFrame_getElem?_data (c : Byte) {d : List Byte} {i : Nat} (h : i < d.length) :
    (encodeFrame c d)[2 + i]? = d[i]? := by
  rw [Nat.add_comm, encodeFrame, List.append_assoc]
  exact List.getElem?_append_left h

theorem encodeFrame_getElem?_etx (c : Byte) (d : List Byte) : (encodeFrame c d)[d.length + 2]? = some ETX := by
  simp [encodeFrame]

theorem encodeFrame_getElem?_checksum (c : Byte) (d : List Byte) :
    (encodeFrame c d)[d.length + 3]? = some (checksum ([c] ++ d ++ [ETX])) := by
  simp [encodeFrame]

/-- The bytes at indices 1 through `n + 2` of a frame with `n` data bytes are the command, the data and ETX (R54). -/
theorem slice_encodeFrame (c : Byte) (d : List Byte) : slice (encodeFrame c d) 1 (d.length + 3) = [c] ++ d ++ [ETX] := by
  rw [encodeFrame_eq, slice_one_cons]
  exact List.take_left' (by simp)

/-! ## The completed write -/

theorem afterWrite_lineOut (s : State) : (afterWrite s).lineOut = s.lineOut := by
  unfold afterWrite
  split <;> rfl

/-- The write of the current frame completes in SENT, whichever operation it belongs to, and appends that frame. -/
theorem step_txDone_lineOut {s : State} {rest : List Event} (ha : s.agenda = .txDone :: rest) (hs : s.seq = .sent) :
    ∃ t, step s = .next t ∧ t.lineOut = s.lineOut ++ s.curFrame := by
  rw [step_cons ha]
  exact ⟨_, if_pos hs, afterWrite_lineOut _⟩

/-! ## The statements -/

/-- Settles O10: the layout field by field, and a completed write of the whole frame. -/
theorem outboundFrameLayout : Obligations.OutboundFrameLayout := by
  intro c d
  refine ⟨encodeFrame_length c d, encodeFrame_getElem?_stx c d, encodeFrame_getElem?_cmd c d,
    fun i => encodeFrame_getElem?_data c, encodeFrame_getElem?_etx c d,
    checksum ([c] ++ d ++ [ETX]), encodeFrame_getElem?_checksum c d, ?_, fun s rest ha hs hf => ?_⟩
  · exact (checksum_toNat _).trans (congrArg (· % 256) (byteSum_eq_sum_toNat _))
  · obtain ⟨t, ht, hout⟩ := step_txDone_lineOut ha hs
    exact ⟨t, ht, hout.trans (congrArg (s.lineOut ++ ·) hf)⟩

/-- Settles O11: the covered indices hold command, data and ETX, whose CHECKSUM is the last byte. -/
theorem frameChecksumCoversCommandThroughEtx : Obligations.FrameChecksumCoversCommandThroughEtx := by
  intro c d
  rw [slice_encodeFrame, encodeFrame_getElem?_checksum]

end Sys2Proof.Machine
end

section
/-! SUPPORT. The framer's statements (41_rx_framer.md): the checksum byte, what arms and disarms the receiver, and the
waits without end. -/

namespace Sys2Proof.Machine

variable {s t : State}

/-! ## Bytes in each receiver state -/

theorem lineByte_stx (hr : s.rx = .expectStx) :
    lineByte STX s = .next { consume STX s with acc := [STX], rx := .body } := by
  simp [lineByte, hr, readStx]

theorem lineByte_body {b : Byte} (hr : s.rx = .body) (hbound : s.atBound = false) (hb : b ≠ ETX) :
    lineByte b s = .next { consume b s with acc := s.acc ++ [b] } := by
  have hc : (consume b s).atBound = false := hbound
  simp [lineByte, hr, readBody, hc, hb]

theorem lineByte_expectChk {b : Byte} (hr : s.rx = .expectChk) : lineByte b s = readChk b (consume b s) := by
  simp [lineByte, hr]

theorem readChk_ok {b computed : Byte} {payload : List Byte} (h : decodeFrame s.acc b = .ok payload computed) :
    readChk b s = .next (post .ok b computed payload (disarm s)) := by
  simp [readChk, h]

theorem readChk_mismatch {b received computed : Byte} (h : decodeFrame s.acc b = .mismatch received computed) :
    readChk b s = .next (post .checksumMismatch received computed [] (disarm s)) := by
  simp [readChk, h]

theorem atBound_eq_false (h : s.config.maxFrame = none) : s.atBound = false := by
  simp [State.atBound, Machine.atBound, h]

/-- Settles O32: the accumulator is a framed payload, so DECODE compares the byte with its checksum and nothing else. -/
theorem checksumByteIsValidated : Obligations.ChecksumByteIsValidated := by
  intro s rest b p ha hr hacc hp
  have hstep : step s = readChk b (consume b { s with agenda := rest }) := by
    rw [step_cons ha]
    exact lineByte_expectChk hr
  have hdecode := decodeFrame_framed hp b
  rw [← hacc] at hdecode
  refine ⟨fun hb => ?_, fun hb => ?_⟩
  · rw [if_pos hb] at hdecode
    exact hstep.trans (readChk_ok hdecode)
  · rw [if_neg hb] at hdecode
    exact hstep.trans (readChk_mismatch hdecode)

/-! ## What arms and disarms the receiver -/

/-- Accepting a request does not touch the receiver. -/
theorem accepts_rx {i : Instr} (h : Accepts i s t) : t.rx = s.rx := by
  obtain ⟨op, cmd, data, -, rfl, -⟩ | ⟨cmd, data, -, rfl⟩ | ⟨chk, frame, -, rfl⟩ | ⟨op, rsvd, cmd, bytes, -, rfl⟩ := h
  · rfl
  · rfl
  · obtain ⟨kind, received, computed, bytes, h, -⟩ :=
      postDecoded_eq chk (decodeFrame frame chk) (beginOp .decode chk s)
    rw [h]
    rfl
  · rfl

/-- No instruction arms the receiver (R86). -/
theorem exec_rx {i : Instr} (h : exec i s = .next t) : t.rx = s.rx ∨ t.rx = .off := by
  obtain ⟨r, -, -, rfl⟩ | ⟨-, ha⟩ | ⟨-, -, rfl⟩ | ⟨cut, -, rfl⟩ := exec_cases h
  · exact .inl rfl
  · exact .inl (accepts_rx ha)
  · exact .inl rfl
  · exact .inr rfl

theorem exec_rx_off {i : Instr} (h : exec i s = .next t) (hr : s.rx = .off) : t.rx = .off :=
  (exec_rx h).elim (·.trans hr) id

theorem rx_ne_off_of_lineAnswer {a : ReadAnswer} (h : lineAnswer a s = .next t) : s.rx ≠ .off := by
  obtain ⟨-, hr, -⟩ | ⟨_, -, -, hr, -⟩ | ⟨_, -, hr, -⟩ | ⟨-, hr, -⟩ | ⟨_, -, -, hr, -⟩ | ⟨_, _, _, -, hr, -⟩ |
    ⟨_, _, _, -, hr, -⟩ | ⟨-, hr, -⟩ | ⟨-, hr, -⟩ := lineAnswer_cases h
  iterate 7 simp [hr]
  iterate 2 exact hr

/-- From RX_OFF only the completed write of an operation other than SEND arms the receiver (R81, R86). -/
theorem runEvent_rx_off {e : Event} (h : runEvent e s = .next t) (hr : s.rx = .off) :
    t.rx = .off ∨
      (e = .txDone ∧ s.seq = .sent ∧ s.curOp ≠ some .send ∧ t = arm (lineWrite s.curFrame s)) := by
  cases e with
  | host item =>
    obtain ⟨i, -, hx⟩ := runItem_cases h
    exact .inl (exec_rx_off hx hr)
  | acceptHeld n =>
    obtain ⟨r, -, -, hx⟩ := acceptHeld_cases h
    exact .inl (exec_rx_off hx hr)
  | txDone =>
    obtain ⟨hs, ⟨-, rfl⟩ | ⟨ho, ht⟩⟩ := lineTxDone_cases h
    · exact .inl hr
    · exact .inr ⟨rfl, hs, ho, ht⟩
  | txFail p =>
    obtain ⟨-, rfl⟩ := lineTxFail_cases h
    exact .inl hr
  | answer a => exact absurd hr (rx_ne_off_of_lineAnswer h)

/-- The Reset input always runs RESET. -/
theorem runEvent_resetInput (cut : Nat) (s : State) :
    runEvent (.host (.resetInput cut)) s =
      .next (clearBlock (if s.seq = .sent then lineWrite (s.curFrame.take cut) s else s)) := rfl

/-- What can happen while the block waits for an answer: a presented request is held, the block is reset, or the read is
answered (R115, R143, R87). -/
theorem runEvent_awaiting {e : Event} (h : runEvent e s = .next t) (hs : s.seq = .awaitingFrame) :
    (∃ r, t = hold r s) ∨ (∃ cut, e = .host (.resetInput cut) ∧ t = clearBlock s) ∨
      ∃ a, e = .answer a ∧ lineAnswer a s = .next t := by
  cases e with
  | host item =>
    obtain ⟨i, hd, hx⟩ := runItem_cases h
    obtain ⟨r, -, -, ht⟩ | ⟨hidle, -⟩ | ⟨-, hposted, -⟩ | ⟨cut, rfl, rfl⟩ := exec_cases hx
    · exact .inl ⟨r, ht⟩
    · cases hs.symm.trans hidle
    · simp [hs] at hposted
    · exact .inr (.inl ⟨cut, by rw [eq_resetInput_of_decode hd], by simp [hs]⟩)
  | acceptHeld n =>
    obtain ⟨r, -, hidle, -⟩ := acceptHeld_cases h
    cases hs.symm.trans hidle
  | txDone => cases hs.symm.trans (lineTxDone_cases h).1
  | txFail p => cases hs.symm.trans (lineTxFail_cases h).1
  | answer a => exact .inr (.inr ⟨a, rfl, h⟩)

/-- An answer either leaves the receive in progress or posts its outcome with the receiver off (R86, R88 to R93). -/
theorem lineAnswer_seq_or_off {a : ReadAnswer} (h : lineAnswer a s = .next t) :
    t.seq = s.seq ∨ t.rx = .off ∧ t.acc = [] := by
  obtain ⟨-, -, rfl⟩ | ⟨_, -, -, -, rfl⟩ | ⟨_, -, -, -, rfl⟩ | ⟨-, -, -, rfl⟩ | ⟨_, -, -, -, -, rfl⟩ |
    ⟨_, _, _, -, -, -, rfl⟩ | ⟨_, _, _, -, -, -, rfl⟩ | ⟨-, -, -, rfl⟩ | ⟨-, -, rfl⟩ := lineAnswer_cases h
  · exact .inl rfl
  · exact .inr ⟨rfl, rfl⟩
  · exact .inr ⟨rfl, rfl⟩
  · exact .inl rfl
  · exact .inl rfl
  iterate 4 exact .inr ⟨rfl, rfl⟩

/-- Every event that ends the wait for an answer disarms the receiver (R86). -/
theorem runEvent_awaiting_seq_or_off {e : Event} (h : runEvent e s = .next t) (hs : s.seq = .awaitingFrame) :
    t.seq = .awaitingFrame ∨ t.rx = .off ∧ t.acc = [] := by
  obtain ⟨r, rfl⟩ | ⟨cut, -, rfl⟩ | ⟨a, -, ha⟩ := runEvent_awaiting h hs
  · exact .inl hs
  · exact .inr ⟨rfl, rfl⟩
  · exact (lineAnswer_seq_or_off ha).imp_left (·.trans hs)

/-- Settles O43: by the invariants a write that is no SEND's is an EXCHANGE's, and an armed receiver is in
AWAITING_FRAME. -/
theorem receiverArmedOnlyByAnExchangeWrite : Obligations.ReceiverArmedOnlyByAnExchangeWrite := by
  intro s t hi h
  refine ⟨fun hoff hon => ?_, fun hon hposted => ?_, fun cut rest ha => ?_⟩
  · obtain ⟨-, rfl⟩ | ⟨e, rest, ha, he⟩ := step_cases h
    · exact absurd hoff hon
    · obtain hoff' | ⟨rfl, hs, ho, rfl⟩ := runEvent_rx_off he hoff
      · exact absurd hoff' hon
      · exact ⟨⟨rest, ha⟩, (hi.sentOp hs).resolve_left ho, rfl, rfl⟩
  · have hs := hi.readingIff.mp hon
    have hnot : t.seq ≠ .awaitingFrame := by
      obtain hv | hf := hposted
      · simp [hv]
      · simp [hf]
    obtain ⟨-, rfl⟩ | ⟨e, rest, -, he⟩ := step_cases h
    · exact absurd hs hnot
    · exact (runEvent_awaiting_seq_or_off he hs).resolve_left hnot
  · rw [step_cons ha, runEvent_resetInput] at h
    cases h
    exact ⟨rfl, rfl⟩

/-! ## Waits without end -/

/-- A block that reads, when the first `k` bytes of an endless stream are in its accumulator (R97). -/
def State.streaming (s : State) (bytes : Nat → Byte) (k : Nat) : State :=
  { s with rx := .body, acc := streamed bytes k, lineIn := s.lineIn ++ streamed bytes k }

/-- The first byte of the stream opens the frame (R88). -/
theorem environmentStep_streaming_one {bytes : Nat → Byte} (ha : s.agenda = []) (hr : s.rx = .expectStx)
    (hstx : bytes 0 = STX) : environmentStep (byteStream bytes 0) s = .next (s.streaming bytes 1) := by
  have hopen : streamed bytes 1 = [STX] := by rw [streamed_succ, streamed_zero, hstx, List.nil_append]
  rw [byteStream, environmentStep_some _ ha, hstx, State.streaming, hopen]
  exact lineByte_stx hr

/-- Without a bound every byte that is not ETX is appended (R89). -/
theorem environmentStep_streaming {bytes : Nat → Byte} {k : Nat} (ha : s.agenda = []) (hmax : s.config.maxFrame = none)
    (hetx : bytes k ≠ ETX) :
    environmentStep (byteStream bytes k) (s.streaming bytes k) = .next (s.streaming bytes (k + 1)) := by
  have hbyte := lineByte_body (s := s.streaming bytes k) rfl (atBound_eq_false hmax) hetx
  have hgrow : s.lineIn ++ streamed bytes (k + 1) = s.lineIn ++ streamed bytes k ++ [bytes k] := by
    rw [streamed_succ, List.append_assoc]
  rw [byteStream, environmentStep_some (s := s.streaming bytes k) _ ha, State.streaming, State.streaming, hgrow,
    streamed_succ]
  exact hbyte

/-- Settles O57: a silent block stays, and the stream's first byte opens a frame that every later byte only prolongs. -/
theorem endlessWaitsAreRuns : Obligations.EndlessWaitsAreRuns := by
  refine ⟨fun s ha k => ?_, fun s bytes ha hr hmax hstx hetx k => ?_⟩
  · exact (environmentStep_none s).trans (step_nil ha)
  · cases k with
    | zero => exact environmentStep_streaming_one ha hr hstx
    | succ k => exact environmentStep_streaming ha hmax (hetx (k + 1))

/-- The block waits in receiver state `rx` with nothing to come and neither limit set (R97). -/
structure WaitsUnbounded (rx : RxState) (s : State) : Prop where
  agenda : s.agenda = []
  seq : s.seq = .awaitingFrame
  rx : s.rx = rx
  maxFrame : s.config.maxFrame = none
  readTimeout : s.config.readTimeout = none

/-- A body byte that is not ETX keeps the wait going, and a timeout cannot happen. -/
theorem WaitsUnbounded.of_lineAnswer {rx : RxState} {a : ReadAnswer} (hw : WaitsUnbounded rx s)
    (hn : NeverEndsTheFrame rx (some (.answer a))) (h : lineAnswer a s = .next t) : WaitsUnbounded rx t := by
  cases a with
  | byte b =>
    obtain ⟨rfl, hb⟩ := hn
    cases (lineByte_body hw.rx (atBound_eq_false hw.maxFrame) hb).symm.trans h
    exact { hw with }
  | timeout => simp [lineAnswer, lineTimeout, hw.readTimeout] at h
  | ioFail => exact hn.elim

/-- Every step of an environment that never ends the frame keeps the wait going. -/
theorem WaitsUnbounded.of_environmentStep {rx : RxState} {e : Option Event} (hw : WaitsUnbounded rx s)
    (hn : NeverEndsTheFrame rx e) (h : environmentStep e s = .next t) : WaitsUnbounded rx t := by
  cases e with
  | none =>
    rw [environmentStep_none, step_nil hw.agenda] at h
    cases h
    exact hw
  | some e =>
    rw [environmentStep_some e hw.agenda] at h
    obtain ⟨r, rfl⟩ | ⟨cut, rfl, -⟩ | ⟨a, rfl, ha⟩ := runEvent_awaiting h hw.seq
    · exact { hw with }
    · exact hn.elim
    · exact hw.of_lineAnswer hn ha

/-- Settles O58: the unbounded wait is an invariant of the run, and a reset is enabled in each of its states. -/
theorem onlyResetEndsAnEndlessWait : Obligations.OnlyResetEndsAnEndlessWait := by
  intro env states hrun hagenda hseq _ hmax htimeout hnever k
  have hwaits : WaitsUnbounded (states 0).rx (states k) := by
    induction k with
    | zero => exact ⟨hagenda, hseq, rfl, hmax, htimeout⟩
    | succ k ih => exact ih.of_environmentStep (hnever k) (hrun k)
  exact ⟨hwaits.seq, hwaits.rx, fun cut =>
    ⟨_, (environmentStep_some _ hwaits.agenda).trans (runEvent_resetInput cut _), rfl, rfl⟩⟩

end Sys2Proof.Machine
end

section
/-! SUPPORT. The validator's success answer (42_rx_validator.md R98, R100, R104). -/

namespace Sys2Proof.Machine

/-- DECODE of a framed payload succeeds exactly when the supplied byte is its checksum. -/
theorem decodeFrame_framed_eq_ok_iff {p : List Byte} (hp : ETX ∉ p) {k computed : Byte} {payload : List Byte} :
    decodeFrame (STX :: (p ++ [ETX])) k = .ok payload computed ↔
      payload = p ∧ k = computed ∧ computed = checksum (p ++ [ETX]) := by
  rw [decodeFrame_framed hp]
  split
  case isTrue hk =>
    subst hk
    rw [DecodeResult.ok.injEq, eq_comm (a := p), eq_comm (a := checksum _), and_self]
  case isFalse hk =>
    exact iff_of_false nofun fun ⟨_, hkc, hc⟩ => hk (hkc.trans hc)

/-- A success answer comes only from a framed payload: the other forms answer with the check they fail. -/
theorem exists_framed_of_decodeFrame_eq_ok {f : List Byte} {k computed : Byte} {payload : List Byte}
    (h : decodeFrame f k = .ok payload computed) : ∃ p, f = STX :: (p ++ [ETX]) ∧ ETX ∉ p := by
  obtain hstx | ⟨p, rfl, hp⟩ | ⟨p, q, rfl, hp, hq⟩ | hframed := frame_forms f
  · cases (decodeFrame_noStx hstx k).symm.trans h
  · cases (decodeFrame_noEtx hp k).symm.trans h
  · cases (decodeFrame_trailing hp hq k).symm.trans h
  · exact hframed

theorem decodeFrame_eq_ok_iff {f : List Byte} {k computed : Byte} {payload : List Byte} :
    decodeFrame f k = .ok payload computed ↔
      f = STX :: (payload ++ [ETX]) ∧ ETX ∉ payload ∧ k = computed ∧ computed = checksum (payload ++ [ETX]) := by
  constructor
  · intro h
    obtain ⟨p, rfl, hp⟩ := exists_framed_of_decodeFrame_eq_ok h
    obtain ⟨rfl, hk⟩ := (decodeFrame_framed_eq_ok_iff hp).mp h
    exact ⟨rfl, hp, hk⟩
  · rintro ⟨rfl, hp, hk⟩
    exact (decodeFrame_framed_eq_ok_iff hp).mpr ⟨rfl, hk⟩

/-- Without its checksum byte an outbound frame is STX, the command with its data, ETX (R53). -/
theorem take_encodeFrame (c : Byte) (d : List Byte) :
    (encodeFrame c d).take (d.length + 3) = STX :: ((c :: d) ++ [ETX]) := by
  rw [encodeFrame_eq, List.take_succ_cons]
  exact congrArg (STX :: ·) (List.take_left' (by simp))

/-- Settles O12: only a framed payload is accepted, and an outbound frame is one in a single way, with the command byte
first. -/
theorem decodeAcceptsExactlyTheFramedPayload : Obligations.DecodeAcceptsExactlyTheFramedPayload := by
  refine ⟨fun f k p comp => decodeFrame_eq_ok_iff, fun c d k p comp h => ?_⟩
  rw [take_encodeFrame] at h
  obtain ⟨hframe, -⟩ := decodeFrame_eq_ok_iff.mp h
  have hpayload : c :: d = p := List.append_cancel_right (List.cons.inj hframe).2
  rw [← hpayload, List.head?_cons]

end Sys2Proof.Machine
end

section
/-! SUPPORT. A SEND from its presentation to the end of its write (43_exchange.md R108; 40_tx_encoder.md R81, R82). -/

namespace Sys2Proof.Machine

variable {s t : State}

/-! ## A request read back from the host channel (R67) -/

theorem headerOp_headerWord (op : BitVec 3) (rsvd : BitVec 5) (cmd : Byte) (n : Nat) :
    headerOp (headerWord op rsvd cmd n) = op := by
  rw [headerOp, headerWord, BitVec.extractLsb'_append_eq_of_add_le (by omega)]
  exact BitVec.extractLsb'_eq_self

theorem headerRsvd_headerWord (op : BitVec 3) (rsvd : BitVec 5) (cmd : Byte) (n : Nat) :
    headerRsvd (headerWord op rsvd cmd n) = rsvd := by
  rw [headerRsvd, headerWord, BitVec.extractLsb'_append_eq_of_le (by omega),
    BitVec.extractLsb'_append_eq_of_add_le (by omega)]
  exact BitVec.extractLsb'_eq_self

theorem headerCmd_headerWord (op : BitVec 3) (rsvd : BitVec 5) (cmd : Byte) (n : Nat) :
    headerCmd (headerWord op rsvd cmd n) = cmd := by
  rw [headerCmd, headerWord, BitVec.extractLsb'_append_eq_of_le (by omega),
    BitVec.extractLsb'_append_eq_of_le (by omega), BitVec.extractLsb'_append_eq_of_add_le (by omega)]
  exact BitVec.extractLsb'_eq_self

/-- A request whose bytes fit the len field decodes to the operation its record names. -/
theorem decode_requestItem (op : BitVec 3) (rsvd : BitVec 5) (cmd : Byte) {bytes : List Byte}
    (h : bytes.length < 65536) :
    decode (requestItem op rsvd cmd bytes) =
      .ok (Request.toInstr { op := op, rsvd := rsvd, cmd := cmd, bytes := bytes }) := by
  rw [requestItem, decode, decodeRequest, if_pos (Laws.headerLen_headerWord op rsvd cmd h), headerOp_headerWord,
    headerRsvd_headerWord, headerCmd_headerWord]

theorem runItem_of_decode {item : HostItem} {i : Instr} (h : decode item = .ok i) : runItem item s = exec i s := by
  rw [runItem, h]

/-! ## Runs -/

theorem run_succ_of_step (h : step s = .next t) (n : Nat) : run (n + 1) s = run n t := by
  rw [run, h]

theorem run_one (s : State) : run 1 s = step s := by
  rw [run]
  cases step s <;> rfl

/-! ## The ends of a write -/

theorem lineTxDone_of_send (hs : s.seq = .sent) (ho : s.curOp = some .send) :
    lineTxDone s = .next (post .ok 0 0 [] (lineWrite s.curFrame s)) := by
  rw [lineTxDone, if_pos hs, afterWrite, lineWrite_curOp, if_pos ho]

theorem lineTxFail_of_sent (p : Nat) (hs : s.seq = .sent) :
    lineTxFail p s = .next (raiseLineError .ioError (lineWrite (s.curFrame.take p) s)) :=
  if_pos hs

/-! ## A SEND and its write -/

/-- Presenting an encoded SEND in IDLE starts its write (R106, R108). -/
theorem runItem_encode_send (cmd : Byte) {data : List Byte} (hdata : data.length < 65536) (hs : s.seq = .idle) :
    runItem (encode (.send cmd data)) s = .next (startWrite .send cmd data s) :=
  (runItem_of_decode (decode_requestItem 1 0 cmd hdata)).trans (submit_idle _ _ hs)

/-- The event after a SEND meets the started write. -/
theorem run_two_of_send {cmd : Byte} {data : List Byte} {e : Event} {rest : List Event}
    (hdata : data.length < 65536) (hs : s.seq = .idle)
    (ha : s.agenda = .host (encode (.send cmd data)) :: e :: rest) :
    run 2 s = runEvent e { startWrite .send cmd data s with agenda := rest } := by
  have hstart : step s = .next (startWrite .send cmd data { s with agenda := e :: rest }) :=
    (step_cons ha).trans (runItem_encode_send cmd hdata hs)
  rw [run_succ_of_step hstart, run_one]
  exact step_cons rfl

/-- Settles O50: the event after the SEND ends its write, which leaves `cur_frame` empty as it was in IDLE. -/
theorem sendEndsWithItsWrite : Obligations.SendEndsWithItsWrite := by
  intro s cmd data rest hs hf hdata
  refine ⟨fun ha => ?_, fun p _ ha => ?_⟩
  · rw [run_two_of_send hdata hs ha, hf]
    exact lineTxDone_of_send rfl rfl
  · rw [run_two_of_send hdata hs ha, hf]
    exact lineTxFail_of_sent p rfl

end Sys2Proof.Machine
end

section
/-! SUPPORT. Decoding and encoding agree (30_encoding.md R53, R56 to R59, R66 to R68), and what a request's record
is. -/

namespace Sys2Proof

/-! ## Request records -/

theorem legalRequest_iff (op : BitVec 3) (rsvd : BitVec 5) :
    legalRequest op rsvd = true ↔ rsvd = 0 ∧ (op = 0 ∨ op = 1 ∨ op = 2 ∨ op = 3) := by
  revert op rsvd
  decide

/-- An illegal request names RESERVED_OP (R68, R111). -/
theorem toInstr_of_illegal {r : Request} (h : ¬ legalRequest r.op r.rsvd = true) :
    r.toInstr = .reservedOp r.op r.rsvd r.cmd r.bytes := by
  rw [legalRequest_iff] at h
  unfold Request.toInstr
  split_ifs <;> simp_all

theorem not_legalRequest_of_wellFormed {op : BitVec 3} {rsvd : BitVec 5} {cmd : Byte} {bytes : List Byte}
    (hw : wellFormed (.reservedOp op rsvd cmd bytes) = true) : ¬ legalRequest op rsvd = true := by
  simp only [wellFormed, Bool.and_eq_true, Bool.not_eq_true'] at hw
  rw [hw.1]
  exact Bool.false_ne_true

/-- The operation a record names is encoded as that record (R66, R67). -/
theorem encode_toInstr (r : Request) : encode r.toInstr = requestItem r.op r.rsvd r.cmd r.bytes := by
  obtain ⟨op, rsvd, cmd, bytes⟩ := r
  simp only [Request.toInstr]
  split_ifs <;> simp_all [encode]

/-- A record names RESERVED_OP only when it is illegal, so its length alone makes it well-formed (R68). -/
theorem wellFormed_toInstr (r : Request) : wellFormed r.toInstr = bytesFit r.bytes := by
  by_cases hl : legalRequest r.op r.rsvd = true
  · obtain ⟨hr, hop⟩ := (legalRequest_iff _ _).mp hl
    unfold Request.toInstr
    split_ifs <;> simp_all [wellFormed]
  · rw [toInstr_of_illegal hl, wellFormed, Bool.eq_false_of_not_eq_true hl]
    rfl

/-- The bytes of a well-formed instruction's request fit the len field. -/
theorem length_lt_of_requestOf {i : Instr} {r : Request} (hw : wellFormed i = true) (hr : requestOf i = some r) :
    r.bytes.length < 65536 := by
  cases i with
  | statusQuery => cases hr; decide
  | displayQuery => cases hr; decide
  | keyPress key => cases hr; simp
  | tune => cases hr; decide
  | reservedOp op rsvd cmd bytes => cases hr; exact of_decide_eq_true (Bool.and_eq_true_iff.mp hw).2
  | take => cases hr
  | reset cut => cases hr
  | _ => cases hr; exact of_decide_eq_true hw

/-! ## Decoding what was encoded -/

theorem decode_encode_keyPress (key : Byte) : decode (encode (.keyPress key)) = .ok (.keyPress key) := by
  simp [decode, encode, decodeFrameItem]

theorem decode_encode {i : Instr} (hw : wellFormed i = true) : decode (encode i) = .ok i := by
  cases i with
  | statusQuery => rfl
  | displayQuery => rfl
  | keyPress key => exact decode_encode_keyPress key
  | tune => rfl
  | encode cmd data => exact Machine.decode_requestItem 0 0 cmd (length_lt_of_requestOf hw rfl)
  | send cmd data => exact Machine.decode_requestItem 1 0 cmd (length_lt_of_requestOf hw rfl)
  | exchange cmd data => exact Machine.decode_requestItem 2 0 cmd (length_lt_of_requestOf hw rfl)
  | decode chk frame => exact Machine.decode_requestItem 3 0 chk (length_lt_of_requestOf hw rfl)
  | reservedOp op rsvd cmd bytes =>
    have hfit : bytes.length < 65536 := length_lt_of_requestOf hw rfl
    rw [encode, Machine.decode_requestItem op rsvd cmd hfit,
      toInstr_of_illegal (not_legalRequest_of_wellFormed hw)]
  | take => rfl
  | reset cut => rfl

/-- Settles O1: a frame is matched bit for bit, and a request's header gives back the fields it was made of. -/
theorem decodeInvertsEncode : Obligations.DecodeInvertsEncode :=
  fun _ => decode_encode

/-! ## Encoding what was decoded -/

/-- A header word is made of its four fields (R67). -/
theorem headerWord_fields (header : Word) :
    headerWord (headerOp header) (headerRsvd header) (headerCmd header) (headerLen header).toNat = header := by
  rw [headerWord, headerOp, headerRsvd, headerCmd, headerLen, BitVec.ofNat_toNat, BitVec.setWidth_eq]
  iterate 3 rw [BitVec.extractLsb'_append_extractLsb'_eq_extractLsb' (by rfl)]
  exact BitVec.extractLsb'_eq_self

theorem encode_of_decodeFrameItem {bytes : List Byte} {i : Instr} (h : decodeFrameItem bytes = .ok i) :
    wellFormed i = true ∧ encode i = .frame bytes := by
  unfold decodeFrameItem at h
  split_ifs at h with hstatus hdisplay htune
  · cases h; exact ⟨rfl, by rw [hstatus]; rfl⟩
  · cases h; exact ⟨rfl, by rw [hdisplay]; rfl⟩
  · cases h; exact ⟨rfl, by rw [htune]; rfl⟩
  · split at h
    · split_ifs at h with hkey
      obtain ⟨rfl, rfl, rfl, rfl⟩ := hkey
      cases h; exact ⟨rfl, rfl⟩
    · cases h

theorem encode_of_decodeRequest {header : Word} {bytes : List Byte} {i : Instr}
    (h : decodeRequest header bytes = .ok i) : wellFormed i = true ∧ encode i = .request header bytes := by
  unfold decodeRequest at h
  split_ifs at h with hlen
  cases h
  refine ⟨?_, ?_⟩
  · rw [wellFormed_toInstr]
    exact decide_eq_true (hlen ▸ (headerLen header).isLt)
  · rw [encode_toInstr, requestItem, ← hlen, headerWord_fields]

/-- Settles O2: a frame row has one frame, and a header word is made of the fields it is read by. -/
theorem encodeInvertsDecode : Obligations.EncodeInvertsDecode := by
  intro item i h
  cases item with
  | frame bytes => exact encode_of_decodeFrameItem h
  | request header bytes => exact encode_of_decodeRequest h
  | takeStep => cases h; exact ⟨rfl, rfl⟩
  | resetInput cut => cases h; exact ⟨rfl, rfl⟩

/-- Settles O3, word by word. -/
theorem specWordsDecode : Obligations.SpecWordsDecode := by
  refine ⟨rfl, rfl, rfl, rfl, rfl, rfl, rfl, rfl, rfl, rfl⟩

/-! ## Command frames and requests -/

theorem encode_keyPress (key : Byte) : encode (.keyPress key) = .frame (Machine.encodeFrame cmdKey [key]) := by
  have hsum : 0x4E + key = Machine.checksum ([cmdKey] ++ [key] ++ [ETX]) := by
    apply BitVec.eq_of_toNat_eq
    simp
    omega
  rw [encode, hsum]
  rfl

/-- Settles O4: only the frame of KEY_PRESS has a checksum that depends on an operand. -/
theorem commandFramesAreEncodedFrames : Obligations.CommandFramesAreEncodedFrames :=
  ⟨rfl, rfl, encode_keyPress, rfl⟩

theorem requestOf_eq_none_iff (i : Instr) : requestOf i = none ↔ i = .take ∨ ∃ cut, i = .reset cut := by
  cases i <;> simp [requestOf]

/-- An instruction that is encoded as a request names the record of its own request. -/
theorem requestOf_of_encode_request {i : Instr} {header : Word} {bytes : List Byte}
    (h : encode i = .request header bytes) :
    ∃ r, requestOf i = some r ∧ header = headerWord r.op r.rsvd r.cmd r.bytes.length ∧ bytes = r.bytes := by
  cases i <;> cases h <;> exact ⟨_, rfl, rfl, rfl⟩

/-- An instruction that is encoded as a frame is a SEND or EXCHANGE of that frame (R55). -/
theorem requestOf_of_encode_frame {i : Instr} {bytes : List Byte} (h : encode i = .frame bytes) :
    ∃ r, requestOf i = some r ∧ r.rsvd = 0 ∧ (r.op = 1 ∨ r.op = 2) ∧ bytes = Machine.encodeFrame r.cmd r.bytes := by
  cases i with
  | statusQuery => cases h; exact ⟨_, rfl, rfl, .inr rfl, rfl⟩
  | displayQuery => cases h; exact ⟨_, rfl, rfl, .inr rfl, rfl⟩
  | keyPress key => exact ⟨_, rfl, rfl, .inl rfl, HostItem.frame.inj (h.symm.trans (encode_keyPress key))⟩
  | tune => cases h; exact ⟨_, rfl, rfl, .inl rfl, rfl⟩
  | _ => cases h

/-- Settles O22: the header fields are read back from the record's, and a command row's frame is ENCODE of its
record's. -/
theorem requestsCarryTheirOperands : Obligations.RequestsCarryTheirOperands := by
  refine ⟨requestOf_eq_none_iff, fun i r _ hr => ⟨fun header bytes h => ?_, fun bytes h => ?_⟩⟩
  · obtain ⟨r', hr', rfl, hbytes⟩ := requestOf_of_encode_request h
    cases hr.symm.trans hr'
    exact ⟨Machine.headerOp_headerWord .., Machine.headerRsvd_headerWord .., Machine.headerCmd_headerWord .., hbytes⟩
  · obtain ⟨r', hr', hframe⟩ := requestOf_of_encode_frame h
    cases hr.symm.trans hr'
    exact hframe

end Sys2Proof
end

section
/-! SUPPORT. What a step does with a host item or a held request (00_scope.md R15; 43_exchange.md R106, R115). -/

namespace Sys2Proof.Machine

/-- Settles O5: the item's event runs the item. -/
theorem stepRunsTheDecodedInstruction : Obligations.StepRunsTheDecodedInstruction :=
  fun _ _ _ _ ha hd _ => (step_cons ha).trans (runItem_of_decode hd)

/-- Settles O6: with no event nothing happens, and an item that decodes to nothing is refused. -/
theorem stepWaitsOrRefusesWithoutAnInstruction : Obligations.StepWaitsOrRefusesWithoutAnInstruction := by
  refine ⟨fun s => step_nil, fun s item rest e ha hd => ?_⟩
  rw [step_cons ha, runEvent, runItem, hd]

/-- A record runs as the instruction that presented it: a command row as its SEND or EXCHANGE (R55). -/
theorem exec_toInstr {i : Instr} {r : Request} (hr : requestOf i = some r) (hw : wellFormed i = true) (s : State) :
    exec r.toInstr s = exec i s := by
  cases i with
  | reservedOp op rsvd cmd bytes =>
    cases hr
    rw [toInstr_of_illegal (not_legalRequest_of_wellFormed hw)]
  | take => cases hr
  | reset cut => cases hr
  | _ => cases hr; rfl

theorem acceptHeld_of_idle {s : State} {n : Nat} {r : Request} (hn : s.held[n]? = some r) (hs : s.seq = .idle) :
    acceptHeld n s = exec r.toInstr { s with held := s.held.eraseIdx n } := by
  rw [acceptHeld, hn]
  exact if_pos hs

/-- Settles O7: the record kept while the request was held runs as its instruction. -/
theorem heldRequestRunsAsPresented : Obligations.HeldRequestRunsAsPresented := by
  intro s n rest i r ha hn hr hw hs
  rw [step_cons ha, runEvent, acceptHeld_of_idle (s := { s with agenda := rest }) hn hs]
  exact exec_toInstr hr hw _

end Sys2Proof.Machine
end

section
/-! SUPPORT. CHECKSUM and DECODE over all byte sequences (40_tx_encoder.md R73, R84; 42_rx_validator.md R98 to R103). -/

namespace Sys2Proof.Machine

/-! ## CHECKSUM -/

theorem checksum_nil : checksum [] = 0 := rfl

theorem checksum_append (xs ys : List Byte) : checksum (xs ++ ys) = checksum xs + checksum ys := by
  induction xs with
  | nil => simp [checksum_nil]
  | cons b bs ih => rw [List.cons_append, checksum_cons, checksum_cons, ih, BitVec.add_assoc]

theorem checksum_append_cons (xs ys : List Byte) (b : Byte) :
    checksum (xs ++ b :: ys) = checksum xs + (b + checksum ys) := by
  rw [checksum_append, checksum_cons]

/-- An 8-bit accumulator that starts at `a` ends at `a` plus the checksum. -/
theorem foldl_add_eq (bs : List Byte) (a : Byte) : bs.foldl (· + ·) a = a + checksum bs := by
  induction bs generalizing a with
  | nil => simp [checksum_nil]
  | cons b bs ih => rw [List.foldl_cons, ih, checksum_cons, BitVec.add_assoc]

/-- Settles O8: the exact sum is taken modulo 256, and the accumulator adds each byte to it in turn. -/
theorem checksumIsTheAccumulatedSum : Obligations.ChecksumIsTheAccumulatedSum := by
  intro bs
  refine ⟨?_, ?_⟩
  · rw [checksum_toNat, byteSum_eq_sum_toNat]
  · rw [foldl_add_eq, zero_add]

theorem checksum_perm {xs ys : List Byte} (h : xs.Perm ys) : checksum xs = checksum ys := by
  rw [checksum, checksum, byteSum_eq_sum_toNat, byteSum_eq_sum_toNat, (h.map BitVec.toNat).sum_nat]

/-- Two sequences that differ in one byte have checksums that differ by as much (R84 item 4). -/
theorem checksum_change_one_iff (xs ys : List Byte) (a b : Byte) :
    checksum (xs ++ a :: ys) = checksum (xs ++ b :: ys) ↔ a = b := by
  rw [checksum_append_cons, checksum_append_cons, BitVec.add_right_inj, BitVec.add_left_inj]

theorem checksum_offsetting (xs ys zs : List Byte) (a b d : Byte) :
    checksum (xs ++ a :: (ys ++ b :: zs)) = checksum (xs ++ (a + d) :: (ys ++ (b - d) :: zs)) := by
  simp only [checksum_append_cons]
  ring

theorem checksum_insert_zero (xs ys : List Byte) : checksum (xs ++ 0 :: ys) = checksum (xs ++ ys) := by
  rw [checksum_append_cons, checksum_append, zero_add]

/-- Settles O9, law by law. -/
theorem checksumLaws : Obligations.ChecksumLaws :=
  ⟨fun _ _ => checksum_perm, checksum_append, fun xs ys a b hab => hab ∘ (checksum_change_one_iff xs ys a b).mp,
    checksum_offsetting, checksum_insert_zero⟩

/-! ## DECODE -/

theorem decodeFrame_mismatch {p : List Byte} (hp : ETX ∉ p) {k : Byte} (hk : k ≠ checksum (p ++ [ETX])) :
    decodeFrame (STX :: (p ++ [ETX])) k = .mismatch k (checksum (p ++ [ETX])) := by
  rw [decodeFrame_framed hp, if_neg hk]

/-- Settles O13: the four forms a sequence can have, each with the check that it fails first. -/
theorem decodeReportsTheFirstFailingCheck : Obligations.DecodeReportsTheFirstFailingCheck := by
  intro f k
  refine ⟨fun h => decodeFrame_noStx h k, ?_, ?_, ?_⟩
  · rintro b rfl hb
    exact decodeFrame_noEtx hb k
  · rintro p q rfl hp hq
    exact decodeFrame_trailing hp hq k
  · rintro p rfl hp hk
    exact decodeFrame_mismatch hp hk

/-- Settles O14: the two short frames without STX, the one without ETX, and the empty payload, whose checksum is ETX. -/
theorem decodeOfShortInputs : Obligations.DecodeOfShortInputs := fun k =>
  ⟨decodeFrame_noStx (by decide) k, decodeFrame_noEtx List.not_mem_nil k, decodeFrame_framed List.not_mem_nil k,
    decodeFrame_noStx (by decide) k⟩

/-- Settles O15: an ETX in command or data comes before the frame's own, which is then a byte after the first. -/
theorem decodeOfAnEncodedFrame : Obligations.DecodeOfAnEncodedFrame := by
  intro c d k hk
  rw [encodeFrame_getElem?_checksum] at hk
  cases hk
  rw [take_encodeFrame]
  refine ⟨fun hc hd => ?_, fun h => ?_⟩
  · have hp : ETX ∉ c :: d := List.not_mem_cons_of_ne_of_not_mem hc.symm hd
    rw [decodeFrame_framed hp]
    exact if_pos rfl
  · have hmem : ETX ∈ c :: d := List.mem_cons.mpr (h.imp_left Eq.symm)
    obtain ⟨p, q, hsplit, hp⟩ := exists_split_first hmem
    rw [hsplit, List.append_assoc, List.cons_append]
    exact decodeFrame_trailing hp (by simp) _

end Sys2Proof.Machine
end

section
/-! SUPPORT. What the host's operations do in each state of the sequencer (43_exchange.md R106 to R115; 40_tx_encoder.md
R77 to R80; 70_reset_and_hazards.md R143). -/

namespace Sys2Proof.Machine

variable {s t : State}

/-! ## Requests -/

/-- Settles O16: in IDLE the request is accepted and its result posted at once. -/
theorem encodePostsTheFrame : Obligations.EncodePostsTheFrame := by
  intro cmd data s hs
  rw [exec, execEncode, submit_idle _ _ hs]
  rfl

/-- Settles O17: in IDLE each request is accepted and starts its write. -/
theorem sendAndExchangeStartTheWrite : Obligations.SendAndExchangeStartTheWrite :=
  fun _ _ _ hs => ⟨submit_idle _ _ hs, submit_idle _ _ hs⟩

/-- Settles O18: each row is accepted as its SEND or EXCHANGE, whose encoded frame is the row's. -/
theorem commandRowsStartTheirFrames : Obligations.CommandRowsStartTheirFrames := by
  intro key s hs
  have hkey : [0x02, 0x4B, key, 0x03, 0x4E + key] = encodeFrame cmdKey [key] :=
    HostItem.frame.inj (encode_keyPress key)
  refine ⟨submit_idle _ _ hs, submit_idle _ _ hs, ?_, submit_idle _ _ hs⟩
  rw [hkey]
  exact submit_idle _ _ hs

/-- A host DECODE accepted in IDLE posts the validator's answer (R110). -/
theorem exec_decode_of_idle (chk : Byte) (frame : List Byte) (hs : s.seq = .idle) :
    exec (.decode chk frame) s =
      .next (postDecoded chk (decodeFrame frame chk) (beginOp .decode chk s)) := by
  rw [exec, execDecode, submit_idle _ _ hs]

/-- The received byte of a mismatch is the supplied checksum byte (R98, R104). -/
theorem eq_of_decodeFrame_eq_mismatch {f : List Byte} {k received computed : Byte}
    (h : decodeFrame f k = .mismatch received computed) : received = k := by
  obtain hstx | ⟨p, rfl, hp⟩ | ⟨p, q, rfl, hp, hq⟩ | ⟨p, rfl, hp⟩ := frame_forms f
  · cases (decodeFrame_noStx hstx k).symm.trans h
  · cases (decodeFrame_noEtx hp k).symm.trans h
  · cases (decodeFrame_trailing hp hq k).symm.trans h
  · rw [decodeFrame_framed hp] at h
    split at h
    · cases h
    · cases h; rfl

/-- Settles O19, one answer of the validator after the other. -/
theorem decodePostsTheVerdict : Obligations.DecodePostsTheVerdict := by
  intro chk frame s hs
  rw [exec_decode_of_idle chk frame hs]
  refine ⟨fun p comp h => ?_, fun recvd comp h => ?_, fun h => ?_, fun h => ?_, fun h => ?_⟩
  · rw [h]; rfl
  · obtain rfl := eq_of_decodeFrame_eq_mismatch h
    rw [h]
    exact ⟨rfl, rfl⟩
  iterate 3 rw [h]; rfl

/-- Settles O20: in IDLE the illegal request is accepted only to be rejected. -/
theorem illegalRequestIsRejected : Obligations.IllegalRequestIsRejected :=
  fun _ _ _ _ _ _ hs => submit_idle _ _ hs

/-- Settles O21: every request goes through `submit`, which holds its record outside IDLE. -/
theorem requestOutsideIdleIsHeld : Obligations.RequestOutsideIdleIsHeld := by
  intro i r s hr hs
  cases i with
  | encode cmd data => cases hr; rw [exec, execEncode, submit_busy _ _ hs]; rfl
  | decode chk frame => cases hr; rw [exec, execDecode, submit_busy _ _ hs]; rfl
  | take => cases hr
  | reset cut => cases hr
  | _ => cases hr; exact submit_busy _ _ hs

/-! ## TAKE and RESET -/

/-- Settles O23: with a result waiting TAKE is enabled. -/
theorem takeDeliversTheResult : Obligations.TakeDeliversTheResult :=
  fun _ hs => if_pos hs

/-- Settles O24: neither state that enables TAKE is given. -/
theorem takeIsNotEnabledWithoutAResult : Obligations.TakeIsNotEnabledWithoutAResult :=
  fun _ hv hf => if_neg (not_or.mpr ⟨hv, hf⟩)

/-- Settles O25: a frame being written leaves its first bytes, and then every element of R19 is cleared. -/
theorem resetRestoresTheBlock : Obligations.ResetRestoresTheBlock := by
  intro s p _
  rw [exec, execReset]
  by_cases hs : s.seq = .sent
  · rw [if_pos hs, if_pos hs]; rfl
  · rw [if_neg hs, if_neg hs]; rfl

/-- Settles O26, field by field. -/
theorem startStateValues : Obligations.StartStateValues := rfl

/-! ## What presenting a request leaves alone -/

/-- `t` differs from `s` at most in the sequencer's fields, the result, `cur_frame` and the held requests. -/
structure LineKept (s t : State) : Prop where
  rx : t.rx = s.rx
  acc : t.acc = s.acc
  resyncNeeded : t.resyncNeeded = s.resyncNeeded
  config : t.config = s.config
  lineOut : t.lineOut = s.lineOut
  lineIn : t.lineIn = s.lineIn
  taken : t.taken = s.taken
  agenda : t.agenda = s.agenda

theorem lineKept_hold (r : Request) (s : State) : LineKept s (hold r s) :=
  ⟨rfl, rfl, rfl, rfl, rfl, rfl, rfl, rfl⟩

theorem lineKept_postDecoded (k : Byte) (r : DecodeResult) (s : State) : LineKept s (postDecoded k r s) := by
  cases r <;> exact ⟨rfl, rfl, rfl, rfl, rfl, rfl, rfl, rfl⟩

theorem Accepts.lineKept {i : Instr} (h : Accepts i s t) : LineKept s t := by
  obtain ⟨op, cmd, data, -, rfl, -⟩ | ⟨cmd, data, -, rfl⟩ | ⟨chk, frame, -, rfl⟩ | ⟨op, rsvd, cmd, bytes, -, rfl⟩ := h
  · exact ⟨rfl, rfl, rfl, rfl, rfl, rfl, rfl, rfl⟩
  · exact ⟨rfl, rfl, rfl, rfl, rfl, rfl, rfl, rfl⟩
  · exact { lineKept_postDecoded chk (decodeFrame frame chk) (beginOp .decode chk s) with }
  · exact ⟨rfl, rfl, rfl, rfl, rfl, rfl, rfl, rfl⟩

theorem postDecoded_curFrame (k : Byte) (r : DecodeResult) (s : State) :
    (postDecoded k r s).curFrame = s.curFrame := by
  cases r <;> rfl

/-- Only a legal SEND or EXCHANGE writes `cur_frame` (R108, R109). -/
theorem Accepts.curFrame {i : Instr} (h : Accepts i s t) : t.curFrame = s.curFrame ∨ usesLine i := by
  obtain ⟨op, cmd, data, -, rfl, r, hr, -, -, hrsvd, hop⟩ | ⟨cmd, data, -, rfl⟩ | ⟨chk, frame, -, rfl⟩ |
    ⟨op, rsvd, cmd, bytes, -, rfl⟩ := h
  · exact .inr ⟨r, hr, hrsvd, hop⟩
  · exact .inl rfl
  · exact .inl (postDecoded_curFrame ..)
  · exact .inl rfl

/-- What a request does when it is presented: it is held, or it is accepted in IDLE. -/
theorem exec_request_cases {i : Instr} {r : Request} (hr : requestOf i = some r) (h : exec i s = .next t) :
    (s.seq ≠ .idle ∧ t = hold r s) ∨ (s.seq = .idle ∧ Accepts i s t) := by
  obtain ⟨r', hr', hs, rfl⟩ | hacc | ⟨rfl, -⟩ | ⟨cut, rfl, -⟩ := exec_cases h
  · cases hr.symm.trans hr'
    exact .inl ⟨hs, rfl⟩
  · exact .inr hacc
  · cases hr
  · cases hr

/-- Settles O27: a request is held or accepted, and neither touches the line. -/
theorem presentingARequestLeavesTheLineAlone : Obligations.PresentingARequestLeavesTheLineAlone := by
  intro i r s t hr h
  have hkept : LineKept s t ∧ (t.curFrame = s.curFrame ∨ usesLine i) := by
    obtain ⟨-, rfl⟩ | ⟨-, hacc⟩ := exec_request_cases hr h
    · exact ⟨lineKept_hold r s, .inl rfl⟩
    · exact ⟨hacc.lineKept, hacc.curFrame⟩
  obtain ⟨⟨hrx, hacc, hresync, hconfig, hout, hin, htaken, hagenda⟩, hframe⟩ := hkept
  refine ⟨hrx, hacc, hresync, hconfig, hout, hin, htaken, hagenda, fun hnot => hframe.resolve_right ?_⟩
  rintro ⟨r', hr', hrsvd, hop⟩
  cases hr.symm.trans hr'
  obtain hne | ⟨hne1, hne2⟩ := hnot
  · exact hne hrsvd
  · exact hop.elim hne1 hne2

end Sys2Proof.Machine
end

section
/-! SUPPORT. The ends of a write and the answers to a read, event by event (40_tx_encoder.md R81, R82; 41_rx_framer.md
R87 to R93). -/

namespace Sys2Proof.Machine

variable {s t : State}

/-! ## The write -/

theorem lineTxDone_of_not_send (hs : s.seq = .sent) (ho : s.curOp ≠ some .send) :
    lineTxDone s = .next (arm (lineWrite s.curFrame s)) := by
  rw [lineTxDone, if_pos hs, afterWrite, lineWrite_curOp, if_neg ho]

/-- Settles O28, for a SEND and for any other operation. -/
theorem completedWrite : Obligations.CompletedWrite := by
  intro s rest ha hs
  rw [step_cons ha]
  exact ⟨fun ho => lineTxDone_of_send hs ho, fun ho => lineTxDone_of_not_send hs ho⟩

/-- Settles O29: a write that fails in SENT leaves its first bytes and raises IO_ERROR. -/
theorem failedWrite : Obligations.FailedWrite := by
  intro s rest p ha hs _
  rw [step_cons ha]
  exact lineTxFail_of_sent p hs

/-! ## The read -/

theorem lineByte_noStx {b : Byte} (hr : s.rx = .expectStx) (hb : b ≠ STX) :
    lineByte b s = .next (framerError .framingNoStx (consume b s)) := by
  simp [lineByte, hr, readStx, hb]

theorem lineByte_tooLong (b : Byte) (hr : s.rx = .body) (hbound : s.atBound = true) :
    lineByte b s = .next (framerError .framingTooLong (consume b s)) := by
  have hc : (consume b s).atBound = true := hbound
  simp [lineByte, hr, readBody, hc]

theorem lineByte_etx (hr : s.rx = .body) (hbound : s.atBound = false) :
    lineByte ETX s = .next { consume ETX s with acc := s.acc ++ [ETX], rx := .expectChk } := by
  have hc : (consume ETX s).atBound = false := hbound
  simp [lineByte, hr, readBody, hc]

theorem lineTimeout_of_reading (hr : s.rx ≠ .off) (ht : s.config.readTimeout ≠ none) :
    lineTimeout s = .next (framerError .timeout s) :=
  if_pos ⟨hr, Option.isSome_iff_ne_none.mpr ht⟩

theorem lineIoFail_of_reading (hr : s.rx ≠ .off) : lineIoFail s = .next (framerError .ioError s) :=
  if_pos hr

/-- The accumulator holds MAX_FRAME bytes exactly when a bound is set and reached (R89). -/
theorem atBound_iff (maxFrame : Option Nat) (acc : List Byte) :
    atBound maxFrame acc = true ↔ ∃ n, maxFrame = some n ∧ n ≤ acc.length := by
  cases maxFrame <;> simp [atBound]

theorem atBound_eq_false_iff (maxFrame : Option Nat) (acc : List Byte) :
    atBound maxFrame acc = false ↔ ∀ n, maxFrame = some n → acc.length < n := by
  cases maxFrame <;> simp [atBound]

/-- Settles O30: the byte is STX or it is not. -/
theorem firstByteMustBeStx : Obligations.FirstByteMustBeStx := by
  intro s rest b ha hr
  rw [step_cons ha]
  refine ⟨?_, fun hb => lineByte_noStx hr hb⟩
  rintro rfl
  exact lineByte_stx hr

/-- Settles O31: below the bound the byte ends the body or it does not. -/
theorem bodyByteUpToTheBound : Obligations.BodyByteUpToTheBound := by
  intro s rest b ha hr
  rw [step_cons ha]
  refine ⟨fun n hn hlen => ?_, fun hbound => ?_⟩
  · exact lineByte_tooLong (s := { s with agenda := rest }) b hr ((atBound_iff _ _).mpr ⟨n, hn, hlen⟩)
  · have hfree : State.atBound { s with agenda := rest } = false := (atBound_eq_false_iff _ _).mpr hbound
    by_cases hb : b = ETX
    · subst hb
      exact lineByte_etx hr hfree
    · rw [if_neg hb, ← hr]
      exact lineByte_body hr hfree hb

/-- Settles O33: both raise their error from any reading state. -/
theorem timeoutAndReadFailure : Obligations.TimeoutAndReadFailure := by
  intro s rest hr
  refine ⟨fun ha ht => ?_, fun ha => ?_⟩
  · rw [step_cons ha]
    exact lineTimeout_of_reading hr ht
  · rw [step_cons ha]
    exact lineIoFail_of_reading hr

/-! ## Where the events are not enabled -/

theorem lineAnswer_of_off (a : ReadAnswer) (hr : s.rx = .off) : lineAnswer a s = .fault .readNotEnabled := by
  cases a with
  | byte b => rw [lineAnswer, lineByte, hr]
  | timeout => exact if_neg fun h => h.1 hr
  | ioFail => exact if_neg (not_not_intro hr)

theorem acceptHeld_of_not_idle (n : Nat) (hs : s.seq ≠ .idle) : acceptHeld n s = .fault .acceptNotEnabled := by
  unfold acceptHeld
  split
  · exact if_neg hs
  · rfl

/-- Settles O34, one event after the other. -/
theorem lineStepsNotEnabledElsewhere : Obligations.LineStepsNotEnabledElsewhere := by
  intro s rest
  refine ⟨fun a ha hr => ?_, fun ha ht => ?_, fun ha hs => ?_, fun p ha hs => ?_, fun n ha hs => ?_⟩ <;>
    rw [step_cons ha]
  · exact lineAnswer_of_off a hr
  · exact if_neg fun h => by simp [ht] at h
  · exact if_neg hs
  · exact if_neg hs
  · exact acceptHeld_of_not_idle n hs

end Sys2Proof.Machine
end

section
/-! SUPPORT. The words the host reads (30_encoding.md R69, R70) and the host's own operations (R72). -/

namespace Sys2Proof.Machine

/-- Settles O53: each field is cut out of the concatenation where it was put. -/
theorem statusWordFields : Obligations.StatusWordFields := by
  intro s
  unfold State.statusWord
  refine ⟨?_, ?_, ?resync, ?_⟩
  case resync =>
    simp only [BitVec.getLsbD_append]
    simp
  all_goals
    simp (disch := omega) only [BitVec.extractLsb'_append_eq_of_le, BitVec.extractLsb'_append_eq_of_add_le,
      Nat.reduceSub, BitVec.extractLsb'_eq_self]

/-- Settles O54: likewise for RES0, and a length below 2^32 is its own remainder. -/
theorem resultWordFields : Obligations.ResultWordFields := by
  intro d
  unfold Delivery.res0
  refine ⟨?_, ?_, ?_, ?_, ?resync, ?_, ?length⟩
  case resync =>
    simp only [BitVec.getLsbD_append]
    simp
  case length =>
    intro hlen
    rw [Delivery.res1, BitVec.toNat_ofNat, Nat.mod_eq_of_lt hlen]
  all_goals
    simp (disch := omega) only [BitVec.extractLsb'_append_eq_of_le, BitVec.extractLsb'_append_eq_of_add_le,
      Nat.reduceSub, BitVec.extractLsb'_eq_self]

/-- SEND_KEY is a SEND of the table's code, or nothing for the block (R72, R130). -/
theorem expand_sendKey_of_some {keyTable : SymbolicKey → Option Byte} {key : SymbolicKey} {k : Byte}
    (h : keyTable key = some k) : Pseudo.expand keyTable (.sendKey key) = .ok [.send cmdKey [k], .take] := by
  rw [Pseudo.expand, h]

theorem expand_sendKey_of_none {keyTable : SymbolicKey → Option Byte} {key : SymbolicKey}
    (h : keyTable key = none) : Pseudo.expand keyTable (.sendKey key) = .error .unknownKey := by
  rw [Pseudo.expand, h]

/-- Settles O55: the table decides SEND_KEY alone. -/
theorem pseudoOperationsExpand : Obligations.PseudoOperationsExpand := fun _ =>
  ⟨rfl, rfl, rfl, fun _ _ => expand_sendKey_of_some, fun _ => expand_sendKey_of_none,
    fun ⟨harrow, hnum⟩ => ⟨expand_sendKey_of_some hnum, expand_sendKey_of_some harrow⟩⟩

/-- Settles O56: an OK result is reported by its operation, any other by its kind. -/
theorem hostReportsTheDeliveredResult : Obligations.HostReportsTheDeliveredResult := by
  intro p d
  refine ⟨fun hok => ⟨?_, ?_, ?_⟩, fun herr => if_neg herr⟩
  · rintro rfl
    exact if_pos hok
  · rintro rfl
    exact if_pos hok
  · rintro (rfl | ⟨key, rfl⟩)
    · exact if_pos hok
    · exact if_pos hok

end Sys2Proof.Machine
end

section
/-! SUPPORT. Everything a step can do, said once: the effect of each event (00_scope.md R15). The statements about every
step go by its cases. -/

namespace Sys2Proof.Machine

variable {s t : State}

/-- A byte that lets the receive go on, with the receiver's next state and accumulator (R88, R89). -/
inductive Reads (b : Byte) (s : State) : RxState → List Byte → Prop
  | opens : s.rx = .expectStx → b = STX → Reads b s .body [STX]
  | closes : s.rx = .body → s.atBound = false → b = ETX → Reads b s .expectChk (s.acc ++ [b])
  | appends : s.rx = .body → s.atBound = false → b ≠ ETX → Reads b s .body (s.acc ++ [b])

/-- The effects of a read's answer: the receive goes on, raises an error that marks the line, or posts the validator's
verdict (R88 to R93). -/
inductive Answered (s : State) : State → Prop
  | goesOn {b : Byte} {rx : RxState} {acc : List Byte} :
    Reads b s rx acc → Answered s { consume b s with acc := acc, rx := rx }
  | failsAtByte (b : Byte) {kind : Kind} : kind.marksLine = true → Answered s (framerError kind (consume b s))
  | failsUnread {kind : Kind} : kind.marksLine = true → Answered s (framerError kind s)
  | validates {b computed : Byte} {payload : List Byte} :
    s.rx = .expectChk → decodeFrame s.acc b = .ok payload computed →
    Answered s (post .ok b computed payload (disarm (consume b s)))
  | mismatches (b received computed : Byte) :
    Answered s (post .checksumMismatch received computed [] (disarm (consume b s)))

theorem lineAnswer_answered {a : ReadAnswer} (h : lineAnswer a s = .next t) : Answered s t := by
  obtain ⟨-, hr, rfl⟩ | ⟨b, -, -, -, rfl⟩ | ⟨b, -, -, -, rfl⟩ | ⟨-, hr, hbound, rfl⟩ | ⟨b, -, hb, hr, hbound, rfl⟩ |
    ⟨b, p, c, -, hr, hd, rfl⟩ | ⟨b, r, c, -, -, -, rfl⟩ | ⟨-, -, -, rfl⟩ | ⟨-, -, rfl⟩ := lineAnswer_cases h
  · exact .goesOn (.opens hr rfl)
  · exact .failsAtByte b rfl
  · exact .failsAtByte b rfl
  · exact .goesOn (.closes hr hbound rfl)
  · exact .goesOn (rx := s.rx) (hr.symm ▸ .appends hr hbound hb)
  · exact .validates hr hd
  · exact .mismatches b r c
  · exact .failsUnread rfl
  · exact .failsUnread rfl

/-- The effects of an event, one constructor for each rule that has one. -/
inductive Effect (s : State) : Event → State → Prop
  /-- A request presented outside IDLE (R115). -/
  | holds {item : HostItem} {i : Instr} {r : Request} :
    decode item = .ok i → requestOf i = some r → Effect s (.host item) (hold r s)
  /-- A request accepted in IDLE, presented or held before (R106). -/
  | accepts {e : Event} {i : Instr} {held : List Request} {t : State} :
    Runs s e i → s.seq = .idle → held.Sublist s.held → Accepts i { s with held := held } t → Effect s e t
  /-- R113. -/
  | takes : s.seq = .validated ∨ s.seq = .failed → Effect s (.host .takeStep) (retire (deliver s))
  /-- R143. -/
  | resets (cut : Nat) :
    Effect s (.host (.resetInput cut)) (clearBlock (if s.seq = .sent then lineWrite (s.curFrame.take cut) s else s))
  /-- R81, its SEND branch. -/
  | sendDone : s.seq = .sent → s.curOp = some .send → Effect s .txDone (post .ok 0 0 [] (lineWrite s.curFrame s))
  /-- R81, its else branch. -/
  | writeDone : s.seq = .sent → s.curOp ≠ some .send → Effect s .txDone (arm (lineWrite s.curFrame s))
  /-- R82. -/
  | writeFails (p : Nat) :
    s.seq = .sent → Effect s (.txFail p) (raiseLineError .ioError (lineWrite (s.curFrame.take p) s))
  /-- R88 to R93. -/
  | answers (a : ReadAnswer) {t : State} : s.rx ≠ .off → Answered s t → Effect s (.answer a) t

/-- Only the host's taking decodes to TAKE. -/
theorem eq_takeStep_of_decode {item : HostItem} (h : decode item = .ok .take) : item = .takeStep :=
  (encodeInvertsDecode item _ h).2.symm

theorem runItem_effect {item : HostItem} (h : runItem item s = .next t) : Effect s (.host item) t := by
  obtain ⟨i, hd, hx⟩ := runItem_cases h
  obtain ⟨r, hr, hs, rfl⟩ | ⟨hs, hacc⟩ | ⟨rfl, hs, rfl⟩ | ⟨cut, rfl, rfl⟩ := exec_cases hx
  · exact .holds hd hr
  · exact .accepts (.inl ⟨item, rfl, hd⟩) hs (.refl _) hacc
  · obtain rfl := eq_takeStep_of_decode hd
    exact .takes hs
  · obtain rfl := eq_resetInput_of_decode hd
    exact .resets cut

/-- A held request is accepted: in IDLE it is not held again, and no record names TAKE or RESET. -/
theorem acceptHeld_effect {n : Nat} (h : acceptHeld n s = .next t) : Effect s (.acceptHeld n) t := by
  obtain ⟨r, hn, hs, hx⟩ := acceptHeld_cases h
  obtain ⟨hne, -⟩ | ⟨-, hacc⟩ := exec_request_cases (requestOf_toInstr r) hx
  · exact absurd hs hne
  · exact .accepts (.inr ⟨n, r, rfl, hn, rfl⟩) hs (List.eraseIdx_sublist ..) hacc

theorem runEvent_effect {e : Event} (h : runEvent e s = .next t) : Effect s e t := by
  cases e with
  | host item => exact runItem_effect h
  | acceptHeld n => exact acceptHeld_effect h
  | txDone =>
    obtain ⟨hs, ⟨ho, rfl⟩ | ⟨ho, rfl⟩⟩ := lineTxDone_cases h
    · exact .sendDone hs ho
    · exact .writeDone hs ho
  | txFail p =>
    obtain ⟨hs, rfl⟩ := lineTxFail_cases h
    exact .writeFails p hs
  | answer a => exact .answers a (rx_ne_off_of_lineAnswer h) (lineAnswer_answered h)

/-- A step waits, or its event has its effect in the state whose agenda has moved past it. -/
theorem step_effect (h : step s = .next t) :
    t = s ∨ ∃ e rest, s.agenda = e :: rest ∧ Effect { s with agenda := rest } e t := by
  obtain ⟨-, rfl⟩ | ⟨e, rest, ha, he⟩ := step_cases h
  · exact .inl rfl
  · exact .inr ⟨e, rest, ha, runEvent_effect he⟩

/-! ## The accepted requests -/

/-- An accepted request starts a write, or posts its result, which is empty unless it is OK (R106 to R111). -/
theorem Accepts.starts_or_posts {i : Instr} (h : Accepts i s t) :
    (∃ op cmd data, (op = .send ∨ op = .exchange) ∧ usesLine i ∧ t = startWrite op cmd data s) ∨
      ∃ op cmd kind received computed bytes, (kind ≠ .ok → bytes = []) ∧ kind ≠ .unknownKey ∧
        t = post kind received computed bytes { s with curOp := op, curCmd := cmd } := by
  obtain ⟨op, cmd, data, hop, rfl, r, hr, -, -, hline⟩ | ⟨cmd, data, -, rfl⟩ | ⟨chk, frame, -, rfl⟩ |
    ⟨op, rsvd, cmd, bytes, -, rfl⟩ := h
  · exact .inl ⟨op, cmd, data, hop, ⟨r, hr, hline⟩, rfl⟩
  · exact .inr ⟨_, _, _, _, _, _, by simp, by simp, rfl⟩
  · obtain ⟨kind, received, computed, bytes, h, hempty, hkey, -⟩ :=
      postDecoded_eq chk (decodeFrame frame chk) (beginOp .decode chk s)
    exact .inr ⟨_, _, kind, received, computed, bytes, hempty, hkey, h⟩
  · exact .inr ⟨_, _, _, _, _, _, by simp, by simp, rfl⟩

end Sys2Proof.Machine
end

section
/-! SUPPORT. Every step keeps the invariants (10_state.md R30). -/

namespace Sys2Proof.Machine

variable {s t : State}

/-! ## States with nothing on the line -/

/-- The receiver is off and no frame waits: what the invariants ask of IDLE, VALIDATED and FAILED alike. -/
structure State.Quiet (s : State) : Prop where
  configLegal : s.config.wf
  rx : s.rx = .off
  acc : s.acc = []
  curFrame : s.curFrame = []

theorem State.Inv.setAgenda (hi : s.Inv) (rest : List Event) : State.Inv { s with agenda := rest } :=
  { hi with }

theorem State.Inv.setHeld (hi : s.Inv) (held : List Request) : State.Inv { s with held := held } :=
  { hi with }

theorem State.Inv.consume (hi : s.Inv) (b : Byte) : (consume b s).Inv :=
  { hi with }

theorem State.Inv.quiet (hi : s.Inv) (hsent : s.seq ≠ .sent) (hawait : s.seq ≠ .awaitingFrame) : s.Quiet := by
  have hrx : s.rx = .off := not_not.mp (mt hi.readingIff.mp hawait)
  exact ⟨hi.configLegal, hrx, hi.offEmpty hrx, not_not.mp (mt hi.sentIff.mpr hsent)⟩

theorem State.Inv.quiet_of_idle (hi : s.Inv) (hs : s.seq = .idle) : s.Quiet :=
  hi.quiet (by simp [hs]) (by simp [hs])

theorem State.Inv.quiet_of_posted (hi : s.Inv) (hs : s.seq = .validated ∨ s.seq = .failed) : s.Quiet := by
  obtain hs | hs := hs
  · exact hi.quiet (by simp [hs]) (by simp [hs])
  · exact hi.quiet (by simp [hs]) (by simp [hs])

theorem State.Inv.rx_of_sent (hi : s.Inv) (hs : s.seq = .sent) : s.rx = .off :=
  not_not.mp (mt hi.readingIff.mp (by simp [hs]))

theorem State.Inv.quiet_lineWrite (hi : s.Inv) (hs : s.seq = .sent) (bytes : List Byte) : (lineWrite bytes s).Quiet :=
  ⟨hi.configLegal, hi.rx_of_sent hs, hi.offEmpty (hi.rx_of_sent hs), rfl⟩

theorem State.Inv.curFrame_of_reading (hi : s.Inv) (hr : s.rx ≠ .off) : s.curFrame = [] := by
  have hs := hi.readingIff.mp hr
  exact not_not.mp (mt hi.sentIff.mpr (by simp [hs]))

theorem State.Inv.quiet_disarm (hi : s.Inv) (hr : s.rx ≠ .off) : (disarm s).Quiet :=
  ⟨hi.configLegal, rfl, rfl, hi.curFrame_of_reading hr⟩

/-- A quiet state in IDLE, VALIDATED or FAILED is good when its sequencer's fields are. -/
theorem State.Quiet.inv (hq : s.Quiet) (hsent : s.seq ≠ .sent) (hawait : s.seq ≠ .awaitingFrame)
    (hidle : s.seq = .idle → s.curOp = none ∧ s.curCmd = 0 ∧ s.res = Result.initial)
    (hvalidated : s.seq = .validated → s.res.kind = .ok)
    (hfailed : s.seq = .failed → s.res.kind ≠ .ok ∧ s.res.bytes = []) : s.Inv where
  configLegal := hq.configLegal
  readingIff := by simp [hq.rx, hawait]
  offEmpty _ := hq.acc
  expectStxEmpty _ := hq.acc
  bodyShape := by simp [hq.rx]
  chkShape := by simp [hq.rx]
  accBound := by simp [hq.acc]
  sentIff := by simp [hq.curFrame, hsent]
  idleClean := hidle
  sentOp := (absurd · hsent)
  awaitingOp := (absurd · hawait)
  validatedOk := hvalidated
  failedError := hfailed

theorem State.Quiet.inv_of_idle (hq : s.Quiet) (hs : s.seq = .idle) (ho : s.curOp = none) (hc : s.curCmd = 0)
    (hr : s.res = Result.initial) : s.Inv :=
  hq.inv (by simp [hs]) (by simp [hs]) (fun _ => ⟨ho, hc, hr⟩) (by simp [hs]) (by simp [hs])

/-- Posting a result keeps the invariants where nothing is on the line (R112, R132). -/
theorem State.Quiet.inv_post (hq : s.Quiet) {kind : Kind} (received computed : Byte) {bytes : List Byte}
    (hempty : kind ≠ .ok → bytes = []) : (post kind received computed bytes s).Inv := by
  have hquiet : (post kind received computed bytes s).Quiet := { hq with }
  by_cases hk : kind = .ok
  · exact hquiet.inv (by simp [hk]) (by simp [hk]) (by simp [hk]) (by simp [hk]) (by simp [hk])
  · exact hquiet.inv (by simp [hk]) (by simp [hk]) (by simp [hk]) (by simp [hk]) (by simp [hk, hempty hk])

theorem State.Quiet.inv_raiseLineError (hq : s.Quiet) (kind : Kind) : (raiseLineError kind s).Inv :=
  State.Quiet.inv_post (s := { s with resyncNeeded := true }) { hq with } 0 0 fun _ => rfl

theorem State.Quiet.inv_startWrite (hq : s.Quiet) {op : HostOp} (hop : op = .send ∨ op = .exchange) (cmd : Byte)
    (data : List Byte) : (startWrite op cmd data s).Inv where
  configLegal := hq.configLegal
  readingIff := by simp [hq.rx]
  offEmpty _ := hq.acc
  expectStxEmpty _ := hq.acc
  bodyShape := by simp [hq.rx]
  chkShape := by simp [hq.rx]
  accBound := by simp [hq.acc]
  sentIff := by simp [encodeFrame]
  idleClean := by simp
  sentOp _ := by simpa using hop
  awaitingOp := by simp
  validatedOk := by simp
  failedError := by simp

theorem State.Quiet.inv_arm (hq : s.Quiet) (ho : s.curOp = some .exchange) : (arm s).Inv where
  configLegal := hq.configLegal
  readingIff := by simp
  offEmpty _ := rfl
  expectStxEmpty _ := rfl
  bodyShape := by simp
  chkShape := by simp
  accBound := by simp
  sentIff := by simp [hq.curFrame]
  idleClean := by simp
  sentOp := by simp
  awaitingOp _ := ho
  validatedOk := by simp
  failedError := by simp

theorem quiet_clearBlock (hc : s.config.wf) : (clearBlock s).Quiet :=
  ⟨hc, rfl, rfl, rfl⟩

/-! ## Reading -/

/-- What R30 says of the accumulator in each reading state. -/
def AccShape : RxState → List Byte → Prop
  | .off, acc => acc = []
  | .expectStx, acc => acc = []
  | .body, acc => ∃ p, acc = STX :: p ∧ ETX ∉ p
  | .expectChk, acc => ∃ p, acc = STX :: (p ++ [ETX]) ∧ ETX ∉ p

/-- A byte that goes on with the receive keeps the accumulator's shape. -/
theorem Reads.accShape {b : Byte} {rx : RxState} {acc : List Byte} (hi : s.Inv) (h : Reads b s rx acc) :
    AccShape rx acc := by
  cases h with
  | opens => exact ⟨[], rfl, List.not_mem_nil⟩
  | closes hr _ hb =>
    obtain ⟨p, hp, hetx⟩ := hi.bodyShape hr
    exact ⟨p, by rw [hp, hb]; rfl, hetx⟩
  | appends hr _ hb =>
    obtain ⟨p, hp, hetx⟩ := hi.bodyShape hr
    exact ⟨p ++ [b], by rw [hp]; rfl, by simp [hetx, hb.symm]⟩

/-- A byte that goes on with the receive keeps the accumulator's bound: MAX_FRAME is at least 2, and at the bound the
receive does not go on (R7, R89). -/
theorem Reads.length_le {b : Byte} {rx : RxState} {acc : List Byte} (hi : s.Inv) (h : Reads b s rx acc) :
    ∀ n ∈ s.config.maxFrame, acc.length ≤ n := by
  intro n hn
  have hlegal := hi.configLegal n hn
  cases h with
  | opens => simp; omega
  | closes _ hbound =>
    have hlt := (atBound_eq_false_iff _ _).mp hbound n hn
    simp; omega
  | appends _ hbound =>
    have hlt := (atBound_eq_false_iff _ _).mp hbound n hn
    simp; omega

theorem Reads.rx_ne_off {b : Byte} {rx : RxState} {acc : List Byte} (h : Reads b s rx acc) :
    s.rx ≠ .off ∧ rx ≠ .off := by
  cases h <;> simp [*]

theorem Reads.inv {b : Byte} {rx : RxState} {acc : List Byte} (hi : s.Inv) (h : Reads b s rx acc) :
    State.Inv { consume b s with acc := acc, rx := rx } := by
  have hshape := h.accShape hi
  have hbound := h.length_le hi
  exact
    { hi with
      readingIff := iff_of_true h.rx_ne_off.2 (hi.readingIff.mp h.rx_ne_off.1)
      offEmpty := by rintro rfl; exact hshape
      expectStxEmpty := by rintro rfl; exact hshape
      bodyShape := by rintro rfl; exact hshape
      chkShape := by rintro rfl; exact hshape
      accBound := hbound }

theorem ne_ok_of_marksLine {kind : Kind} (h : kind.marksLine = true) : kind ≠ .ok := by
  rintro rfl
  cases h

/-! ## Every effect keeps the invariants -/

theorem Accepts.inv {i : Instr} (hi : s.Inv) (hs : s.seq = .idle) (h : Accepts i s t) : t.Inv := by
  have hq := hi.quiet_of_idle hs
  obtain ⟨op, cmd, data, hop, -, rfl⟩ | ⟨op, cmd, kind, received, computed, bytes, hempty, -, rfl⟩ := h.starts_or_posts
  · exact hq.inv_startWrite hop cmd data
  · exact State.Quiet.inv_post (s := { s with curOp := op, curCmd := cmd }) { hq with } received computed hempty

theorem Answered.inv (hi : s.Inv) (hr : s.rx ≠ .off) (h : Answered s t) : t.Inv := by
  cases h with
  | goesOn hreads => exact hreads.inv hi
  | failsAtByte b => exact ((hi.consume b).quiet_disarm hr).inv_raiseLineError _
  | failsUnread => exact (hi.quiet_disarm hr).inv_raiseLineError _
  | validates => exact ((hi.consume _).quiet_disarm hr).inv_post _ _ (absurd rfl)
  | mismatches b => exact ((hi.consume b).quiet_disarm hr).inv_post _ _ fun _ => rfl

theorem Effect.inv {e : Event} (hi : s.Inv) (h : Effect s e t) : t.Inv := by
  cases h with
  | holds => exact hi.setHeld _
  | @accepts _ _ held _ _ hs _ hacc => exact hacc.inv (hi.setHeld held) hs
  | takes hs => exact State.Quiet.inv_of_idle { hi.quiet_of_posted hs with } rfl rfl rfl rfl
  | resets cut =>
    refine (quiet_clearBlock ?_).inv_of_idle rfl rfl rfl rfl
    split <;> exact hi.configLegal
  | sendDone hs => exact (hi.quiet_lineWrite hs _).inv_post 0 0 fun _ => rfl
  | writeDone hs ho => exact (hi.quiet_lineWrite hs _).inv_arm ((hi.sentOp hs).resolve_left ho)
  | writeFails p hs => exact (hi.quiet_lineWrite hs _).inv_raiseLineError _
  | answers a hr hans => exact hans.inv hi hr

/-- Settles O36: a waiting step changes nothing, and every effect keeps the invariants. -/
theorem everyStepKeepsTheInvariants : Obligations.EveryStepKeepsTheInvariants := by
  intro s t hi h
  obtain rfl | ⟨e, rest, -, he⟩ := step_effect h
  · exact hi
  · exact he.inv (hi.setAgenda rest)

/-! ## Capacities -/

/-- An instruction that an event runs is well-formed: a host item decodes to no other, and what is held fits its len
field (R67). -/
theorem wellFormed_of_runs {e : Event} {i : Instr} (hb : s.Bounded) (h : Runs s e i) : wellFormed i = true := by
  obtain ⟨item, -, hd⟩ | ⟨n, r, -, hn, rfl⟩ := h
  · exact (encodeInvertsDecode item i hd).1
  · rw [wellFormed_toInstr]
    exact decide_eq_true (hb.held r (List.mem_of_getElem? hn))

theorem encodeFrame_length_le {cmd : Byte} {data : List Byte} (h : data.length < 65536) :
    (encodeFrame cmd data).length ≤ 65539 := by
  rw [encodeFrame_length]
  omega

/-- A posted payload is shorter than the frame it was cut from by STX and ETX. -/
theorem length_of_decodeFrame_eq_ok {f payload : List Byte} {k computed : Byte}
    (h : decodeFrame f k = .ok payload computed) : f.length = payload.length + 2 := by
  obtain ⟨rfl, -⟩ := decodeFrame_eq_ok_iff.mp h
  simp

/-- Posting keeps the capacities when its bytes are within R36's. -/
theorem State.Bounded.post (hb : s.Bounded) (kind : Kind) (received computed : Byte) {bytes : List Byte}
    (hlen : ∀ n ∈ s.config.maxFrame, bytes.length ≤ max 65539 (n - 2)) :
    (post kind received computed bytes s).Bounded :=
  { hb with result := hlen }

theorem State.Bounded.post_empty (hb : s.Bounded) (kind : Kind) (received computed : Byte) :
    (Machine.post kind received computed [] s).Bounded :=
  hb.post kind received computed fun _ _ => Nat.zero_le _

theorem State.Bounded.setAgenda (hb : s.Bounded) (rest : List Event) : State.Bounded { s with agenda := rest } :=
  { hb with }

theorem State.Bounded.setHeld (hb : s.Bounded) {held : List Request} (hheld : ∀ r ∈ held, r.bytes.length < 65536) :
    State.Bounded { s with held := held } :=
  { hb with held := hheld }

theorem State.Bounded.lineWrite (hb : s.Bounded) (bytes : List Byte) : (lineWrite bytes s).Bounded :=
  { hb with frame := Nat.zero_le _ }

theorem State.Bounded.raiseLineError (hb : s.Bounded) (kind : Kind) : (raiseLineError kind s).Bounded :=
  { hb with result := fun _ _ => Nat.zero_le _ }

theorem State.Bounded.disarm_consume (hb : s.Bounded) (b : Byte) : (disarm (consume b s)).Bounded :=
  { hb with }

theorem postDecoded_bounded (hb : s.Bounded) (k : Byte) {frame : List Byte} (hlen : frame.length < 65536) :
    (postDecoded k (decodeFrame frame k) s).Bounded := by
  cases hd : decodeFrame frame k with
  | ok payload computed =>
    have hpayload := length_of_decodeFrame_eq_ok hd
    exact hb.post _ _ _ fun n _ => le_max_of_le_left (by omega)
  | mismatch received computed => exact hb.post_empty ..
  | noStx => exact hb.post_empty ..
  | noEtx => exact hb.post_empty ..
  | trailing => exact hb.post_empty ..

theorem Accepts.bounded {i : Instr} (hb : s.Bounded) (hw : wellFormed i = true) (h : Accepts i s t) : t.Bounded := by
  have hbegun : ∀ op cmd, (beginOp op cmd s).Bounded := fun _ _ => { hb with }
  obtain ⟨op, cmd, data, -, rfl, r, hr, -, rfl, -⟩ | ⟨cmd, data, rfl, rfl⟩ | ⟨chk, frame, rfl, rfl⟩ |
    ⟨op, rsvd, cmd, bytes, -, rfl⟩ := h
  · exact { hb with frame := encodeFrame_length_le (length_lt_of_requestOf hw hr) }
  · have hlen := encodeFrame_length_le (cmd := cmd) (length_lt_of_requestOf hw rfl)
    exact (hbegun ..).post _ _ _ fun _ _ => le_max_of_le_left hlen
  · exact postDecoded_bounded (hbegun ..) chk (length_lt_of_requestOf hw rfl)
  · exact { hb with result := fun _ _ => Nat.zero_le _ }

theorem Answered.bounded (hi : s.Inv) (hb : s.Bounded) (h : Answered s t) : t.Bounded := by
  cases h with
  | goesOn => exact { hb with }
  | failsAtByte b => exact (hb.disarm_consume b).raiseLineError _
  | failsUnread => exact { hb with result := fun _ _ => Nat.zero_le _ }
  | validates _ hd =>
    refine (hb.disarm_consume _).post _ _ _ fun n hn => le_max_of_le_right ?_
    have hacc := hi.accBound n hn
    have hpayload := length_of_decodeFrame_eq_ok hd
    omega
  | mismatches b => exact (hb.disarm_consume b).post_empty ..

theorem Effect.bounded {e : Event} (hi : s.Inv) (hb : s.Bounded) (h : Effect s e t) : t.Bounded := by
  cases h with
  | @holds _ _ r hd hr =>
    have hlen := length_lt_of_requestOf (encodeInvertsDecode _ _ hd).1 hr
    refine hb.setHeld (held := s.held ++ [r]) fun r' hmem => ?_
    obtain hmem | hmem := List.mem_append.mp hmem
    · exact hb.held r' hmem
    · rw [List.mem_singleton.mp hmem]
      exact hlen
  | accepts hruns _ hsub hacc =>
    exact hacc.bounded (hb.setHeld fun r hmem => hb.held r (hsub.subset hmem)) (wellFormed_of_runs hb hruns)
  | takes => exact { hb with result := fun _ _ => Nat.zero_le _ }
  | resets cut =>
    refine ⟨Nat.zero_le _, fun _ _ => Nat.zero_le _, ?_⟩
    split <;> exact hb.held
  | sendDone => exact (hb.lineWrite _).post_empty ..
  | writeDone => exact { hb.lineWrite s.curFrame with }
  | writeFails p => exact (hb.lineWrite _).raiseLineError _
  | answers a _ hans => exact hans.bounded hi hb

/-- Settles O37: a waiting step changes nothing, and every effect keeps the capacities. -/
theorem everyStepKeepsTheCapacities : Obligations.EveryStepKeepsTheCapacities := by
  intro s t hi hb h
  obtain rfl | ⟨e, rest, -, he⟩ := step_effect h
  · exact hb
  · exact he.bounded (hi.setAgenda rest) (hb.setAgenda rest)

theorem config_default_wf : Config.default.wf := by
  simp [Config.wf, Config.default]

/-- Settles O35: the start state is quiet in IDLE, with a legal MAX_FRAME, and holds no bytes. -/
theorem startStateMeetsTheInvariants : Obligations.StartStateMeetsTheInvariants :=
  ⟨State.Quiet.inv_of_idle ⟨config_default_wf, rfl, rfl, rfl⟩ rfl rfl rfl rfl,
    Nat.zero_le _, fun _ _ => Nat.zero_le _, fun _ h => absurd h List.not_mem_nil⟩

end Sys2Proof.Machine
end

section
/-! SUPPORT. What every step keeps or may change, read off the effects of events (43_exchange.md R114, R115;
60_exceptions.md R132, R133; 41_rx_framer.md R91). -/

namespace Sys2Proof.Machine

variable {s t : State}

/-! ## The unreachable outcome -/

theorem exec_ne_framerUnreachable (i : Instr) (s : State) : exec i s ≠ .fault .framerUnreachable := by
  cases i with
  | take =>
    rw [exec, execTake]
    split <;> nofun
  | _ => nofun

theorem runItem_ne_framerUnreachable (item : HostItem) (s : State) : runItem item s ≠ .fault .framerUnreachable := by
  unfold runItem
  split
  · exact exec_ne_framerUnreachable _ s
  · nofun

theorem acceptHeld_ne_framerUnreachable (n : Nat) (s : State) : acceptHeld n s ≠ .fault .framerUnreachable := by
  unfold acceptHeld
  split
  · split
    · exact exec_ne_framerUnreachable _ _
    · nofun
  · nofun

/-- With a framed payload in the accumulator the checksum byte always gives a verdict (R91, R95 item 1). -/
theorem readChk_ne_framerUnreachable {p : List Byte} (hacc : s.acc = STX :: (p ++ [ETX])) (hp : ETX ∉ p) (b : Byte) :
    readChk b s ≠ .fault .framerUnreachable := by
  rw [readChk, hacc, decodeFrame_framed hp]
  by_cases hb : b = checksum (p ++ [ETX])
  · rw [if_pos hb]; nofun
  · rw [if_neg hb]; nofun

theorem lineByte_ne_framerUnreachable (hi : s.Inv) (b : Byte) : lineByte b s ≠ .fault .framerUnreachable := by
  unfold lineByte
  split
  · nofun
  · nofun
  · nofun
  · rename_i hr
    obtain ⟨p, hacc, hp⟩ := hi.chkShape hr
    exact readChk_ne_framerUnreachable (s := consume b s) hacc hp b

theorem runEvent_ne_framerUnreachable (hi : s.Inv) (e : Event) : runEvent e s ≠ .fault .framerUnreachable := by
  cases e with
  | host item => exact runItem_ne_framerUnreachable item s
  | acceptHeld n => exact acceptHeld_ne_framerUnreachable n s
  | txDone =>
    rw [runEvent, lineTxDone]
    split <;> nofun
  | txFail p =>
    rw [runEvent, lineTxFail]
    split <;> nofun
  | answer a =>
    cases a with
    | byte b => exact lineByte_ne_framerUnreachable hi b
    | timeout =>
      rw [runEvent, lineAnswer, lineTimeout]
      split <;> nofun
    | ioFail =>
      rw [runEvent, lineAnswer, lineIoFail]
      split <;> nofun

/-- Settles O38: only a checksum byte calls DECODE, and the invariants frame the accumulator there. -/
theorem framerNeverHandsOverABadFrame : Obligations.FramerNeverHandsOverABadFrame := by
  intro s hi
  cases ha : s.agenda with
  | nil =>
    rw [step_nil ha]
    nofun
  | cons e rest =>
    rw [step_cons ha]
    exact runEvent_ne_framerUnreachable (hi.setAgenda rest) e

/-! ## The waiting frame and the configuration -/

/-- A posted result leaves the block in VALIDATED or FAILED (R112). -/
theorem post_seq_posted (kind : Kind) (received computed : Byte) (bytes : List Byte) (s : State) :
    (post kind received computed bytes s).seq = .validated ∨ (post kind received computed bytes s).seq = .failed := by
  rw [post_seq]
  split
  · exact .inl rfl
  · exact .inr rfl

theorem ne_sent_of_posted (h : s.seq = .validated ∨ s.seq = .failed) : s.seq ≠ .sent := by
  obtain h | h := h <;> simp [h]

/-- An answer leaves the receive in progress or posts its outcome. -/
theorem Answered.seq (h : Answered s t) : t.seq = s.seq ∨ t.seq = .validated ∨ t.seq = .failed := by
  cases h with
  | goesOn => exact .inl rfl
  | failsAtByte => exact .inr (post_seq_posted ..)
  | failsUnread => exact .inr (post_seq_posted ..)
  | validates => exact .inr (post_seq_posted ..)
  | mismatches => exact .inr (post_seq_posted ..)

/-- The frame waiting in SENT is ENCODE of the command in progress (R27, R35). -/
def State.FrameEncoded (s : State) : Prop :=
  s.seq = .sent → ∃ d, s.curFrame = encodeFrame s.curCmd d

theorem Accepts.frameEncoded {i : Instr} (h : Accepts i s t) : t.FrameEncoded := by
  obtain ⟨op, cmd, data, -, -, rfl⟩ | ⟨op, cmd, kind, received, computed, bytes, -, -, rfl⟩ := h.starts_or_posts
  · exact fun _ => ⟨data, rfl⟩
  · exact fun hs => absurd hs (ne_sent_of_posted (post_seq_posted ..))

/-- Only the acceptance of a request enters SENT. -/
theorem Effect.frameEncoded {e : Event} (hi : s.Inv) (hf : s.FrameEncoded) (h : Effect s e t) : t.FrameEncoded := by
  cases h with
  | holds => exact hf
  | accepts _ _ _ hacc => exact hacc.frameEncoded
  | takes => exact nofun
  | resets => exact nofun
  | sendDone => exact nofun
  | writeDone => exact nofun
  | writeFails => exact nofun
  | answers a hr hans =>
    intro hs
    obtain hkept | hposted := hans.seq
    · have hawait := hkept.trans (hi.readingIff.mp hr)
      cases hs.symm.trans hawait
    · exact absurd hs (ne_sent_of_posted hposted)

/-- Settles O39: SENT is entered with an encoded frame, and left with it. -/
theorem waitingFrameIsEncoded : Obligations.WaitingFrameIsEncoded := by
  intro s t hi hf h
  obtain rfl | ⟨e, rest, -, he⟩ := step_effect h
  · exact hf
  · exact he.frameEncoded (hi.setAgenda rest) hf

theorem Answered.config (h : Answered s t) : t.config = s.config := by
  cases h <;> rfl

theorem Effect.config {e : Event} (h : Effect s e t) : t.config = s.config := by
  cases h with
  | accepts _ _ _ hacc => exact hacc.lineKept.config
  | resets cut =>
    rw [clearBlock_config]
    split <;> rfl
  | answers a _ hans => exact hans.config
  | _ => rfl

/-- Settles O40: no effect writes the configuration. -/
theorem configurationNeverChanges : Obligations.ConfigurationNeverChanges := by
  intro s t h
  obtain rfl | ⟨e, rest, -, he⟩ := step_effect h
  · rfl
  · exact he.config

/-! ## The sequencer's moves -/

theorem postDecoded_seq_posted (k : Byte) (r : DecodeResult) (s : State) :
    (postDecoded k r s).seq = .validated ∨ (postDecoded k r s).seq = .failed := by
  cases r <;> exact post_seq_posted ..

/-- The rows of R114 for an accepted request. The acceptance may happen in a state `s'` that no longer holds it. -/
theorem Accepts.seqMove {s' : State} {e : Event} {i : Instr} (hs : s.seq = .idle) (hruns : Runs s e i)
    (h : Accepts i s' t) : SeqMove s e t.seq := by
  obtain ⟨op, cmd, data, -, rfl, r, hr, -, -, hline⟩ | ⟨cmd, data, rfl, rfl⟩ | ⟨chk, frame, rfl, rfl⟩ |
    ⟨op, rsvd, cmd, bytes, rfl, rfl⟩ := h
  · exact .writing i hs ⟨r, hr, hline⟩ hruns
  · exact .encoded cmd data hs hruns
  · obtain hv | hf := postDecoded_seq_posted chk (decodeFrame frame chk) (beginOp .decode chk s')
    · exact hv ▸ .decodedOk chk frame hs hruns
    · exact hf ▸ .decodedError chk frame hs hruns
  · exact .rejected op rsvd cmd bytes hs hruns

theorem Effect.seqMove {rest : List Event} {e : Event} (hi : s.Inv) (h : Effect { s with agenda := rest } e t)
    (hne : t.seq ≠ s.seq) : SeqMove s e t.seq := by
  cases h with
  | holds => exact absurd rfl hne
  | accepts hruns hs _ hacc => exact hacc.seqMove hs hruns
  | takes hs => exact .taken hs (.inl ⟨_, rfl, rfl⟩)
  | resets cut => exact .reset cut (.inl ⟨_, rfl, rfl⟩)
  | sendDone hs ho => exact .sendDone hs rfl ho
  | writeDone hs ho => exact .exchangeDone hs rfl ((hi.sentOp hs).resolve_left ho)
  | writeFails p hs => exact .writeFailed p hs rfl
  | answers a hr hans =>
    have hawait := hi.readingIff.mp hr
    obtain hkept | hv | hf := hans.seq
    · exact absurd hkept hne
    · exact hv ▸ .receivedOk a hawait rfl
    · exact hf ▸ .receivedError a hawait rfl

/-- Settles O42: each effect that moves `seq` is a row of R114. -/
theorem sequencerMovesOnlyAsTabulated : Obligations.SequencerMovesOnlyAsTabulated := by
  intro s t hi h hne
  obtain rfl | ⟨e, rest, ha, he⟩ := step_effect h
  · exact absurd rfl hne
  · exact ⟨e, rest, ha, he.seqMove hi hne⟩

/-! ## The resync bit -/

/-- The kinds that R133 lists. -/
theorem marksLine_iff (kind : Kind) :
    kind.marksLine = true ↔ kind = .timeout ∨ kind = .ioError ∨ kind = .framingNoStx ∨ kind = .framingTooLong := by
  cases kind <;> simp [Kind.marksLine]

/-- A write or receive in progress ends in a posted error of the kinds that R133 lists. -/
def LineFails (s t : State) : Prop :=
  s.busy = true ∧ t.seq = .failed ∧ t.res.kind.marksLine = true

theorem busy_iff (s : State) : s.busy = true ↔ s.seq = .sent ∨ s.seq = .awaitingFrame := by
  simp [State.busy]

theorem not_busy_of_posted (hs : s.seq = .validated ∨ s.seq = .failed) : ¬ s.busy = true := by
  rw [busy_iff]
  obtain hs | hs := hs <;> simp [hs]

/-- The bit of `t` is set exactly if it was set in `s` or the line failed in between. -/
def ResyncMarked (s t : State) : Prop :=
  t.resyncNeeded = true ↔ s.resyncNeeded = true ∨ LineFails s t

theorem resyncMarked_of_kept (hkept : t.resyncNeeded = s.resyncNeeded) (hnot : ¬ LineFails s t) : ResyncMarked s t := by
  rw [ResyncMarked, hkept, or_iff_left hnot]

theorem resyncMarked_of_fails (hset : t.resyncNeeded = true) (hfails : LineFails s t) : ResyncMarked s t :=
  iff_of_true hset (.inr hfails)

theorem framerError_seq_of_marksLine {kind : Kind} (hk : kind.marksLine = true) (s : State) :
    (framerError kind s).seq = .failed :=
  if_neg (ne_ok_of_marksLine hk)

theorem Answered.resyncMarked (hs : s.seq = .awaitingFrame) (h : Answered s t) : ResyncMarked s t := by
  have hbusy : s.busy = true := (busy_iff s).mpr (.inr hs)
  cases h with
  | goesOn => exact resyncMarked_of_kept rfl fun ⟨_, hfailed, _⟩ => nomatch hs.symm.trans hfailed
  | failsAtByte b hk => exact resyncMarked_of_fails rfl ⟨hbusy, framerError_seq_of_marksLine hk _, hk⟩
  | failsUnread hk => exact resyncMarked_of_fails rfl ⟨hbusy, framerError_seq_of_marksLine hk _, hk⟩
  | validates => exact resyncMarked_of_kept rfl fun ⟨_, _, hkind⟩ => nomatch hkind
  | mismatches => exact resyncMarked_of_kept rfl fun ⟨_, _, hkind⟩ => nomatch hkind

/-- Every effect but reset's marks the line exactly by R133. -/
theorem Effect.resyncMarked {e : Event} (hi : s.Inv) (h : Effect s e t) (hreset : ∀ cut, e ≠ .host (.resetInput cut)) :
    ResyncMarked s t := by
  cases h with
  | holds => exact resyncMarked_of_kept rfl fun ⟨hbusy, hfailed, _⟩ => not_busy_of_posted (.inr hfailed) hbusy
  | accepts _ hs _ hacc =>
    refine resyncMarked_of_kept hacc.lineKept.resyncNeeded ?_
    rintro ⟨hbusy, -⟩
    simp [State.busy, hs] at hbusy
  | takes hs => exact resyncMarked_of_kept rfl fun ⟨hbusy, _⟩ => not_busy_of_posted hs hbusy
  | resets cut => exact absurd rfl (hreset cut)
  | sendDone => exact resyncMarked_of_kept rfl fun ⟨_, hfailed, _⟩ => nomatch hfailed
  | writeDone => exact resyncMarked_of_kept rfl fun ⟨_, hfailed, _⟩ => nomatch hfailed
  | writeFails p hs => exact resyncMarked_of_fails rfl ⟨(busy_iff s).mpr (.inl hs), rfl, rfl⟩
  | answers a hr hans => exact hans.resyncMarked (hi.readingIff.mp hr)

/-- Settles O44: reset clears the bit, and every other effect sets it by R133's kinds alone. -/
theorem resyncIsMarkedExactlyByLineErrors : Obligations.ResyncIsMarkedExactlyByLineErrors := by
  intro s t hi h
  refine ⟨fun cut rest ha => ?_, fun hreset => ?_⟩
  · rw [step_cons ha, runEvent_resetInput] at h
    cases h
    rfl
  · rw [← marksLine_iff]
    change ResyncMarked s t
    obtain rfl | ⟨e, rest, ha, he⟩ := step_effect h
    · exact resyncMarked_of_kept rfl fun ⟨hbusy, hfailed, _⟩ => not_busy_of_posted (.inr hfailed) hbusy
    · have hmarked := he.resyncMarked (hi.setAgenda rest) fun cut hcut => hreset cut rest (hcut ▸ ha)
      exact hmarked

/-! ## Posted results -/

/-- A posted result can only be kept, taken, or cleared by reset (R112, R113, R115). -/
theorem Effect.of_posted {e : Event} (hi : s.Inv) (hs : s.seq = .validated ∨ s.seq = .failed) (h : Effect s e t) :
    (∃ r, t = hold r s) ∨ (e = .host .takeStep ∧ t = retire (deliver s)) ∨
      ∃ cut, e = .host (.resetInput cut) ∧ t = clearBlock s := by
  have hrx := (hi.quiet_of_posted hs).rx
  have hsent := ne_sent_of_posted hs
  cases h with
  | holds => exact .inl ⟨_, rfl⟩
  | accepts _ hidle => simp [hidle] at hs
  | takes => exact .inr (.inl ⟨rfl, rfl⟩)
  | resets cut => exact .inr (.inr ⟨cut, rfl, by rw [if_neg hsent]⟩)
  | sendDone hs' => exact absurd hs' hsent
  | writeDone hs' => exact absurd hs' hsent
  | writeFails _ hs' => exact absurd hs' hsent
  | answers _ hr => exact absurd hrx hr

/-- Settles O45: holding a request keeps all four, TAKE delivers them, and reset delivers nothing. -/
theorem postedResultIsNotOverwritten : Obligations.PostedResultIsNotOverwritten := by
  intro s t hi hs h
  obtain rfl | ⟨e, rest, ha, he⟩ := step_effect h
  · exact .inl ⟨rfl, rfl, rfl, rfl⟩
  · obtain ⟨r, rfl⟩ | ⟨rfl, rfl⟩ | ⟨cut, rfl, rfl⟩ := he.of_posted (hi.setAgenda rest) hs
    · exact .inl ⟨rfl, rfl, rfl, rfl⟩
    · exact .inr ⟨rfl, rest, .inl ⟨ha, rfl⟩⟩
    · exact .inr ⟨rfl, rest, .inr ⟨cut, ha, rfl⟩⟩

/-- No result is UNKNOWN_KEY, and no delivered error carries a payload (R130, R132). -/
structure State.CleanErrors (s : State) : Prop where
  res : s.res.kind ≠ .unknownKey
  taken : ∀ d ∈ s.taken, d.result.kind ≠ .unknownKey ∧ (d.result.kind ≠ .ok → d.result.bytes = [])

theorem Accepts.res_kind {i : Instr} (h : Accepts i s t) (hk : s.res.kind ≠ .unknownKey) :
    t.res.kind ≠ .unknownKey := by
  obtain ⟨op, cmd, data, -, -, rfl⟩ | ⟨op, cmd, kind, received, computed, bytes, -, hkind, rfl⟩ := h.starts_or_posts
  · exact hk
  · exact hkind

theorem ne_unknownKey_of_marksLine {kind : Kind} (h : kind.marksLine = true) : kind ≠ .unknownKey := by
  rintro rfl
  cases h

theorem Answered.cleanErrors (hc : s.CleanErrors) (h : Answered s t) : t.CleanErrors := by
  cases h with
  | goesOn => exact { hc with }
  | failsAtByte b hk => exact { hc with res := ne_unknownKey_of_marksLine hk }
  | failsUnread hk => exact { hc with res := ne_unknownKey_of_marksLine hk }
  | validates => exact { hc with res := nofun }
  | mismatches => exact { hc with res := nofun }

/-- A waiting result is OK, or an error with no bytes. -/
theorem State.Inv.bytes_of_posted (hi : s.Inv) (hs : s.seq = .validated ∨ s.seq = .failed) (hk : s.res.kind ≠ .ok) :
    s.res.bytes = [] := by
  obtain hs | hs := hs
  · exact absurd (hi.validatedOk hs) hk
  · exact (hi.failedError hs).2

theorem Effect.cleanErrors {e : Event} (hi : s.Inv) (hc : s.CleanErrors) (h : Effect s e t) : t.CleanErrors := by
  cases h with
  | holds => exact { hc with }
  | accepts _ _ _ hacc =>
    refine ⟨hacc.res_kind hc.res, ?_⟩
    rw [hacc.lineKept.taken]
    exact hc.taken
  | takes hs =>
    refine ⟨nofun, fun d hd => ?_⟩
    obtain hd | hd := List.mem_append.mp hd
    · exact hc.taken d hd
    · rw [List.mem_singleton.mp hd]
      exact ⟨hc.res, hi.bytes_of_posted hs⟩
  | resets cut =>
    refine ⟨nofun, ?_⟩
    rw [clearBlock_taken]
    split <;> exact hc.taken
  | sendDone => exact { hc with res := nofun }
  | writeDone => exact { hc with }
  | writeFails => exact { hc with res := nofun }
  | answers _ _ hans => exact hans.cleanErrors hc

/-- Settles O46: no rule posts UNKNOWN_KEY, and what TAKE delivers meets the invariants of VALIDATED or FAILED. -/
theorem deliveredErrorsCarryNoPayload : Obligations.DeliveredErrorsCarryNoPayload := by
  rintro s t hi h ⟨hres, htaken⟩
  have hc : t.CleanErrors := by
    obtain rfl | ⟨e, rest, -, he⟩ := step_effect h
    · exact ⟨hres, htaken⟩
    · exact he.cleanErrors (hi.setAgenda rest) ⟨hres, htaken⟩
  exact ⟨hc.res, hc.taken⟩

/-- Settles O47: a byte is consumed only with the receiver on, where the operation is an EXCHANGE. -/
theorem sendNeverReadsTheLine : Obligations.SendNeverReadsTheLine := by
  intro s t hi ho h
  obtain ⟨out, inn, -, hin, -, hread⟩ := historiesOnlyGrow s t h
  have hnone : inn = [] := by
    by_contra hne
    have hexchange := hi.awaitingOp (hi.readingIff.mp (hread hne).1)
    cases ho.symm.trans hexchange
  rw [hin, hnone, List.append_nil]

end Sys2Proof.Machine
end

section
/-! SUPPORT. The framer step by step against RECV and EXCH (41_rx_framer.md R95, R96; 43_exchange.md R120). -/

namespace Sys2Proof.Machine

variable {s t : State} {script : List ReadAnswer} {rest : List Event}

/-! ## Runs over a script -/

/-- A script of answers comes next, and then `rest`. -/
def State.facing (s : State) (script : List ReadAnswer) (rest : List Event) : State :=
  { s with agenda := script.map .answer ++ rest }

theorem facing_of_agenda (ha : s.agenda = script.map .answer ++ rest) : s.facing script rest = s := by
  rw [State.facing, ← ha]

/-- Byte `b` is consumed and the receive goes on with the given receiver state and accumulator. -/
def State.readOn (s : State) (b : Byte) (rx : RxState) (acc : List Byte) : State :=
  { consume b s with acc := acc, rx := rx }

/-- The state in which `r` is posted after the first `k` answers of a script. -/
def State.received (s : State) (script : List ReadAnswer) (rest : List Event) (r : Result) (k : Nat) : State :=
  { s with
    seq := if r.kind = .ok then .validated else .failed
    rx := .off
    acc := []
    res := r
    resyncNeeded := s.resyncNeeded || r.kind.marksLine
    lineIn := s.lineIn ++ answerBytes (script.take k)
    agenda := (script.drop k).map .answer ++ rest }

/-- After the whole script the block in `t` reads on. -/
structure StillReading (s : State) (script : List ReadAnswer) (rest : List Event) (t : State) : Prop where
  seq : t.seq = .awaitingFrame
  rx : t.rx ≠ .off
  agenda : t.agenda = rest
  lineIn : t.lineIn = s.lineIn ++ answerBytes script
  resyncNeeded : t.resyncNeeded = s.resyncNeeded

/-- The run of `s` over a script does what RECV answers, when `k` answers were used before. -/
def Agrees (s : State) (script : List ReadAnswer) (rest : List Event) (k : Nat) : Option (Result × Nat) → Prop
  | some (r, total) => ∃ j, total = k + j ∧ run j (s.facing script rest) = .next (s.received script rest r j)
  | none => ∃ t, run script.length (s.facing script rest) = .next t ∧ StillReading s script rest t

theorem agrees_nil (hs : s.seq = .awaitingFrame) (hr : s.rx ≠ .off) (k : Nat) : Agrees s [] rest k none :=
  ⟨s.facing [] rest, rfl, hs, hr, rfl, (List.append_nil _).symm, rfl⟩

theorem step_facing_cons (a : ReadAnswer) :
    step (s.facing (a :: script) rest) = lineAnswer a (s.facing script rest) :=
  step_cons (s := s.facing (a :: script) rest) rfl

/-- An answer that posts a result ends the receive. -/
theorem agrees_of_posts {a : ReadAnswer} {r : Result}
    (h : lineAnswer a (s.facing script rest) = .next (s.received (a :: script) rest r 1)) (k : Nat) :
    Agrees s (a :: script) rest k (some (r, k + 1)) :=
  ⟨1, rfl, (run_one _).trans ((step_facing_cons a).trans h)⟩

/-- A byte that goes on leads to the rest of the script. -/
theorem agrees_of_goesOn {b : Byte} {rx : RxState} {acc : List Byte} {k : Nat} {o : Option (Result × Nat)}
    (hstep : lineByte b (s.facing script rest) =
      .next ((s.readOn b rx acc).facing script rest))
    (h : Agrees (s.readOn b rx acc) script rest (k + 1) o) :
    Agrees s (.byte b :: script) rest k o := by
  have hrun := run_succ_of_step ((step_facing_cons (.byte b)).trans hstep)
  cases o with
  | none =>
    obtain ⟨t, ht, hstill⟩ := h
    exact ⟨t, (hrun _).trans ht, { hstill with lineIn := hstill.lineIn.trans (List.append_assoc ..) }⟩
  | some out =>
    obtain ⟨j, htotal, hj⟩ := h
    refine ⟨j + 1, by omega, ((hrun j).trans hj).trans ?_⟩
    simp [State.received, State.readOn, answerBytes]

/-! ## The answers that end a receive -/

theorem framerError_facing {kind : Kind} (hk : kind.marksLine = true) {a : ReadAnswer} (ha : answerBytes [a] = []) :
    framerError kind (s.facing script rest) = s.received (a :: script) rest (errorResult kind) 1 := by
  have hne := ne_ok_of_marksLine hk
  simp [framerError, raiseLineError, post, disarm, State.facing, State.received, errorResult, hk, hne, ha]

theorem framerError_consume_facing {kind : Kind} (hk : kind.marksLine = true) (b : Byte) :
    framerError kind (consume b (s.facing script rest)) = s.received (.byte b :: script) rest (errorResult kind) 1 := by
  have hne := ne_ok_of_marksLine hk
  simp [framerError, raiseLineError, post, disarm, consume, State.facing, State.received, errorResult, answerBytes, hk,
    hne]

theorem post_consume_facing {kind : Kind} (hk : kind.marksLine = false) (b received computed : Byte)
    (bytes : List Byte) :
    post kind received computed bytes (disarm (consume b (s.facing script rest))) =
      s.received (.byte b :: script) rest ⟨kind, received, computed, bytes⟩ 1 := by
  simp [post, disarm, consume, State.facing, State.received, answerBytes, hk]

/-- A script holds a timeout only where READ_TIMEOUT is set (R92). -/
def Admits (config : Config) (script : List ReadAnswer) : Prop :=
  ReadAnswer.timeout ∈ script → config.readTimeout ≠ none

theorem Admits.tail {config : Config} {a : ReadAnswer} (h : Admits config (a :: script)) : Admits config script :=
  fun hmem => h (List.mem_cons_of_mem a hmem)

theorem agrees_timeout (hr : s.rx ≠ .off) (hadmits : Admits s.config (.timeout :: script)) (k : Nat) :
    Agrees s (.timeout :: script) rest k (some (errorResult .timeout, k + 1)) := by
  refine agrees_of_posts ?_ k
  rw [← framerError_facing rfl rfl]
  exact lineTimeout_of_reading hr (hadmits List.mem_cons_self)

theorem agrees_ioFail (hr : s.rx ≠ .off) (k : Nat) :
    Agrees s (.ioFail :: script) rest k (some (errorResult .ioError, k + 1)) := by
  refine agrees_of_posts ?_ k
  rw [← framerError_facing rfl rfl]
  exact lineIoFail_of_reading hr

/-! ## The three reading states -/

/-- With a framed payload in the accumulator the checksum byte posts DECODE's verdict (R90, R91). -/
theorem lineByte_expectChk_facing (hr : s.rx = .expectChk) {p : List Byte} (hacc : s.acc = STX :: (p ++ [ETX]))
    (hp : ETX ∉ p) (b : Byte) :
    lineByte b (s.facing script rest) =
      .next (s.received (.byte b :: script) rest (decodedResult b (decodeFrame s.acc b)) 1) := by
  have hbyte : lineByte b (s.facing script rest) = readChk b (consume b (s.facing script rest)) :=
    lineByte_expectChk hr
  have hdecode := decodeFrame_framed hp b
  rw [← hacc] at hdecode
  rw [hbyte]
  split at hdecode
  · rw [readChk_ok (s := consume b (s.facing script rest)) hdecode, hdecode, post_consume_facing rfl]
    rfl
  · rw [readChk_mismatch (s := consume b (s.facing script rest)) hdecode, hdecode, post_consume_facing rfl]
    rfl

theorem agrees_recvChk (hs : s.seq = .awaitingFrame) (hr : s.rx = .expectChk) {p : List Byte}
    (hacc : s.acc = STX :: (p ++ [ETX])) (hp : ETX ∉ p) (hadmits : Admits s.config script) (k : Nat) :
    Agrees s script rest k (recvChk s.acc k script) := by
  have hon : s.rx ≠ .off := by simp [hr]
  cases script with
  | nil => exact agrees_nil hs hon k
  | cons a script =>
    cases a with
    | byte b => exact agrees_of_posts (a := .byte b) (lineByte_expectChk_facing hr hacc hp b) k
    | timeout => exact agrees_timeout hon hadmits k
    | ioFail => exact agrees_ioFail hon k

theorem agrees_recvBody (hs : s.seq = .awaitingFrame) (hr : s.rx = .body) {p : List Byte} (hacc : s.acc = STX :: p)
    (hp : ETX ∉ p) (hadmits : Admits s.config script) (k : Nat) :
    Agrees s script rest k (recvBody s.config.maxFrame s.acc k script) := by
  have hon : s.rx ≠ .off := by simp [hr]
  induction script generalizing s p k with
  | nil => exact agrees_nil hs hon k
  | cons a script ih =>
    cases a with
    | timeout => exact agrees_timeout hon hadmits k
    | ioFail => exact agrees_ioFail hon k
    | byte b =>
      rw [recvBody]
      split_ifs with hbound hb
      · refine agrees_of_posts ?_ k
        rw [← framerError_consume_facing rfl]
        exact lineByte_tooLong b hr hbound
      · subst hb
        have hfree : (s.facing script rest).atBound = false := Bool.eq_false_of_not_eq_true hbound
        have hframed : s.acc ++ [ETX] = STX :: (p ++ [ETX]) := by rw [hacc, List.cons_append]
        refine agrees_of_goesOn (lineByte_etx hr hfree) ?_
        exact agrees_recvChk (s := s.readOn ETX .expectChk (s.acc ++ [ETX])) hs rfl hframed hp hadmits.tail (k + 1)
      · have hfree : (s.facing script rest).atBound = false := Bool.eq_false_of_not_eq_true hbound
        have hbody : s.acc ++ [b] = STX :: (p ++ [b]) := by rw [hacc, List.cons_append]
        refine agrees_of_goesOn (lineByte_body hr hfree hb) ?_
        exact ih (s := s.readOn b s.rx (s.acc ++ [b])) hs hr hbody (by simp [hp, Ne.symm hb]) hadmits.tail (k + 1) hon

theorem agrees_recv (hs : s.seq = .awaitingFrame) (hr : s.rx = .expectStx) (hadmits : Admits s.config script) :
    Agrees s script rest 0 (recv s.config.maxFrame script) := by
  have hon : s.rx ≠ .off := by simp [hr]
  cases script with
  | nil => exact agrees_nil hs hon 0
  | cons a script =>
    cases a with
    | timeout => exact agrees_timeout hon hadmits 0
    | ioFail => exact agrees_ioFail hon 0
    | byte b =>
      rw [recv]
      split_ifs with hb
      · subst hb
        refine agrees_of_goesOn (lineByte_stx hr) ?_
        exact agrees_recvBody (s := s.readOn STX .body [STX]) hs rfl rfl List.not_mem_nil hadmits.tail 1
      · refine agrees_of_posts ?_ 0
        rw [← framerError_consume_facing rfl]
        exact lineByte_noStx hr hb

/-- Settles O48: RECV and the framer go through the script answer by answer. -/
theorem framerAgreesWithRecv : Obligations.FramerAgreesWithRecv := by
  intro s script rest hs hr _ hadmits ha
  have hagrees : Agrees s script rest 0 (recv s.config.maxFrame script) := agrees_recv hs hr hadmits
  refine ⟨fun r k hrecv => ?_, fun hrecv => ?_⟩
  · rw [hrecv] at hagrees
    obtain ⟨j, hk, hrun⟩ := hagrees
    rw [facing_of_agenda ha] at hrun
    rw [hk, Nat.zero_add, hrun]
    rfl
  · rw [hrecv] at hagrees
    obtain ⟨t, hrun, hstill⟩ := hagrees
    rw [facing_of_agenda ha] at hrun
    exact ⟨t, hrun, hstill.seq, hstill.rx, hstill.agenda, hstill.lineIn, hstill.resyncNeeded⟩

/-! ## A whole EXCHANGE -/

/-- Presenting an encoded EXCHANGE in IDLE starts its write (R106, R109). -/
theorem step_of_exchange {cmd : Byte} {data : List Byte} (hdata : data.length < 65536) (hs : s.seq = .idle)
    (ha : s.agenda = .host (encode (.exchange cmd data)) :: rest) :
    step s = .next (startWrite .exchange cmd data { s with agenda := rest }) :=
  (step_cons ha).trans ((runItem_of_decode (decode_requestItem 2 0 cmd hdata)).trans (submit_idle _ _ hs))

/-- The block after the completed write of an EXCHANGE (R81). -/
def State.exchanging (s : State) (cmd : Byte) (data : List Byte) : State :=
  arm (lineWrite (encodeFrame cmd data) (startWrite .exchange cmd data s))

/-- The two steps before the first read. -/
theorem run_exchange_done {cmd : Byte} {data : List Byte} (hdata : data.length < 65536) (hs : s.seq = .idle)
    (ha : s.agenda = .host (encode (.exchange cmd data)) :: .txDone :: rest) (k : Nat) :
    run (k + 2) s = run k (State.exchanging { s with agenda := rest } cmd data) := by
  have hdone : step (startWrite .exchange cmd data { s with agenda := .txDone :: rest }) =
      .next (State.exchanging { s with agenda := rest } cmd data) := by
    rw [step_cons (e := .txDone) (rest := rest) rfl]
    exact lineTxDone_of_not_send rfl (by simp)
  rw [run_succ_of_step (step_of_exchange hdata hs ha), run_succ_of_step hdone]

/-- Settles O49: the write completes and the framer reads as RECV does, or the write fails. -/
theorem exchangeAgreesWithExch : Obligations.ExchangeAgreesWithExch := by
  intro s cmd data script rest hs hrx hacc hf hdata hadmits
  refine ⟨fun o ho ha => ?_, fun p o _ ho ha => ?_⟩
  · obtain ⟨⟨r, k⟩, hrecv, rfl⟩ := Option.map_eq_some_iff.mp ho
    have hframer := framerAgreesWithRecv
      (State.exchanging { s with agenda := script.map .answer ++ rest } cmd data) script rest rfl rfl rfl hadmits rfl
    rw [run_exchange_done hdata hs ha, hframer.1 r k hrecv, hrx, hacc, hf]
    rfl
  · cases ho
    rw [run_succ_of_step (step_of_exchange hdata hs ha), run_one, step_cons (e := .txFail p) rfl, hf]
    exact lineTxFail_of_sent p rfl

/-! ## How many answers a receive uses -/

/-- What RECV's outcome says of the number of answers used, `before` of which, all bytes, came before the script. -/
structure UsesAsSaid (maxFrame : Option Nat) (script : List ReadAnswer) (before : Nat) (r : Result) (k : Nat) :
    Prop where
  ok : r.kind = .ok → k = r.bytes.length + 3 ∧ ETX ∉ r.bytes
  noStx : r.kind = .framingNoStx → k = 1
  tooLong : r.kind = .framingTooLong → ∃ n, maxFrame = some n ∧ k = n + 1
  unread : r.kind = .timeout ∨ r.kind = .ioError →
    ∃ j, k = before + j ∧ (answerBytes (script.take j)).length + 1 = j

variable {maxFrame : Option Nat} {r : Result} {before k : Nat}

/-- A timeout or a read failure is one answer and no byte. -/
theorem usesAsSaid_unread {a : ReadAnswer} (ha : answerBytes [a] = []) {kind : Kind}
    (hk : kind = .timeout ∨ kind = .ioError) :
    UsesAsSaid maxFrame (a :: script) before (errorResult kind) (before + 1) where
  ok h := by obtain rfl | rfl := hk <;> cases h
  noStx h := by obtain rfl | rfl := hk <;> cases h
  tooLong h := by obtain rfl | rfl := hk <;> cases h
  unread _ := ⟨1, rfl, by simp [ha]⟩

theorem UsesAsSaid.cons {b : Byte} (h : UsesAsSaid maxFrame script (before + 1) r k) :
    UsesAsSaid maxFrame (.byte b :: script) before r k where
  ok := h.ok
  noStx := h.noStx
  tooLong := h.tooLong
  unread hk := by
    obtain ⟨j, hj, hlen⟩ := h.unread hk
    exact ⟨j + 1, by omega, by simp [answerBytes, hlen]⟩

theorem usesAsSaid_verdict {p : List Byte} (hp : ETX ∉ p) (b : Byte) (hbefore : before = p.length + 2) :
    UsesAsSaid maxFrame script before (decodedResult b (decodeFrame (STX :: (p ++ [ETX])) b)) (before + 1) := by
  rw [decodeFrame_framed hp]
  split
  · exact ⟨fun _ => ⟨by simp [decodedResult, hbefore], hp⟩, nofun, nofun, by simp [decodedResult]⟩
  · exact ⟨nofun, nofun, nofun, by simp [decodedResult]⟩

theorem usesAsSaid_recvChk {p : List Byte} (hp : ETX ∉ p) (hbefore : before = p.length + 2)
    (h : recvChk (STX :: (p ++ [ETX])) before script = some (r, k)) : UsesAsSaid maxFrame script before r k := by
  cases script with
  | nil => cases h
  | cons a script =>
    cases a with
    | byte b => cases h; exact usesAsSaid_verdict hp b hbefore
    | timeout => cases h; exact usesAsSaid_unread rfl (.inl rfl)
    | ioFail => cases h; exact usesAsSaid_unread rfl (.inr rfl)

theorem usesAsSaid_recvBody {p : List Byte} (hp : ETX ∉ p) (hbefore : before = p.length + 1)
    (hbound : ∀ n ∈ maxFrame, p.length + 1 ≤ n) (h : recvBody maxFrame (STX :: p) before script = some (r, k)) :
    UsesAsSaid maxFrame script before r k := by
  induction script generalizing p before with
  | nil => cases h
  | cons a script ih =>
    cases a with
    | timeout => cases h; exact usesAsSaid_unread rfl (.inl rfl)
    | ioFail => cases h; exact usesAsSaid_unread rfl (.inr rfl)
    | byte b =>
      rw [recvBody] at h
      split_ifs at h with hat hb
      · cases h
        obtain ⟨n, rfl, hn⟩ := (atBound_iff _ _).mp hat
        have hle := hbound n rfl
        refine ⟨nofun, nofun, fun _ => ⟨n, rfl, ?_⟩, by simp [errorResult]⟩
        rw [List.length_cons] at hn
        omega
      · exact (usesAsSaid_recvChk hp (by omega) h).cons
      · have hfree := (atBound_eq_false_iff _ _).mp (Bool.eq_false_of_not_eq_true hat)
        refine (ih (p := p ++ [b]) (by simp [hp, Ne.symm hb]) (by simp [hbefore]) (fun n hn => ?_) h).cons
        have hlt := hfree n hn
        simpa using hlt

theorem usesAsSaid_recv (hlegal : ∀ n ∈ maxFrame, 2 ≤ n) (h : recv maxFrame script = some (r, k)) :
    UsesAsSaid maxFrame script 0 r k := by
  cases script with
  | nil => cases h
  | cons a script =>
    cases a with
    | timeout => cases h; exact usesAsSaid_unread rfl (.inl rfl)
    | ioFail => cases h; exact usesAsSaid_unread rfl (.inr rfl)
    | byte b =>
      rw [recv] at h
      split_ifs at h with hb
      · refine (usesAsSaid_recvBody List.not_mem_nil rfl (fun n hn => ?_) h).cons
        exact le_trans (by simp) (hlegal n hn)
      · cases h
        exact ⟨nofun, fun _ => rfl, nofun, by simp [errorResult]⟩

/-- Settles O51: each outcome counts the accumulator's bytes and its own answer. -/
theorem receiveUsesAsManyBytesAsItsOutcomeSays : Obligations.ReceiveUsesAsManyBytesAsItsOutcomeSays := by
  intro maxFrame script r k hlegal h
  have huses := usesAsSaid_recv hlegal h
  refine ⟨huses.ok, huses.noStx, huses.tooLong, fun hk => ?_⟩
  obtain ⟨j, hj, hlen⟩ := huses.unread hk
  rw [Nat.zero_add] at hj
  rw [hj, hlen]

end Sys2Proof.Machine
end
